-- ==== Sys2Proof/Word.lean ====
section
/-! DEFINITION. The widths of the values the spec treats as bits (00_scope.md R7, R10; 30_encoding.md R95, R100).
Bits are numbered from 0, the least significant; `v[hi:lo]` of the spec is `v.extractLsb' lo (hi - lo + 1)`, and the
spec's `a ++ b` is `++` of `BitVec`, `a` the more significant part. -/

namespace Sys2Proof

/-- One byte on the transport (R7, R52). -/
abbrev Byte := BitVec 8

/-- A bus address, 7 bits (R7, R21). -/
abbrev BusAddress := BitVec 7

/-- An output level or a wire level, 16 bits (R7, R26, R34). -/
abbrev Level := BitVec 16

/-- A request word `RW`, 36 bits (R95). -/
abbrev RequestWord := BitVec 36

/-- A response word `RSP`, 12 bits (R100). -/
abbrev ResponseWord := BitVec 12

end Sys2Proof
end

