-- ==== Sys2Proof/Syntax.lean ====
section
/-! DEFINITION. The seven operations of the DCE (30_encoding.md R96) and the four enumerations their arguments range over
(10_state.md R20, R22 to R25). An enumeration is not a number (00_scope.md R10): its number on the wire and its number
in a request word are given by encodings (R81 to R84, R98). -/

namespace Sys2Proof

/-- The reference mode (R22), in the order of R98. -/
inductive ReferenceMode where
  | vddUnbuffered
  | vrefUnbuffered
  | vrefBuffered
deriving DecidableEq, Repr

/-- The gain (R23), in the order of R98. -/
inductive Gain where
  | x1
  | x2
deriving DecidableEq, Repr

/-- The power mode (R24), in the order of R98. -/
inductive PowerMode where
  | normalOperation
  | powerDown1k
  | powerDown100k
  | powerDown500k
deriving DecidableEq, Repr

/-- The memory target (R25), in the order of R98. -/
inductive MemoryTarget where
  | volatileDacRegister
  | volatileCommand
  | allMemory
  | volatileConfigurationBits
deriving DecidableEq, Repr

/-- The operations of R96, one constructor per row of the opcode table. Every term is a legal operation: the types carry
all that R99 checks in a word. `initializeOp` is the row `initialize`, whose plain name is a word of Lean's own. -/
inductive Instr where
  | construct (address : BusAddress) (referenceMode : ReferenceMode) (gain : Gain) (powerMode : PowerMode)
      (memoryTarget : MemoryTarget) (initialLevel : Level)
  | initializeOp
  | setGain (gain : Gain)
  | setVoltageReference (mode : ReferenceMode)
  | setPowerMode (mode : PowerMode)
  | setOutputLevelVolatileFast (level : Level)
  | downloadParameters (memoryTarget : MemoryTarget)
deriving DecidableEq, Repr

end Sys2Proof
end

