-- ==== Sys2Proof/WellFormed.lean ====
section
/-! DEFINITION. Which request words are legal (30_encoding.md R99), read from the rows of `spec/opcode_table.json`: three
checks, one for each way a word can be illegal. The decoder (Decode.lean) is written from the formats of R97 instead,
so that the two can be held against each other. An `Instr` needs no check: its types admit legal operations only. -/

namespace Sys2Proof

/-- One row of the opcode table: the fixed bits (`mask`, `pattern`) and, where the format has a `ref` field, the place
of its low bit. -/
structure TableRow where
  mnemonic : String
  pattern : RequestWord
  mask : RequestWord
  refAt : Option Nat
deriving DecidableEq, Repr

/-- `spec/opcode_table.json`, its seven rows in order. -/
def opcodeTable : List TableRow :=
  [ ⟨"construct", 0x100000000#36, 0xF80010000#36, some 20⟩,
    ⟨"initialize", 0x200000000#36, 0xFFFFFFFFF#36, none⟩,
    ⟨"setGain", 0x300000000#36, 0xFFFFFFFFE#36, none⟩,
    ⟨"setVoltageReference", 0x400000000#36, 0xFFFFFFFFC#36, some 0⟩,
    ⟨"setPowerMode", 0x500000000#36, 0xFFFFFFFFC#36, none⟩,
    ⟨"setOutputLevelVolatileFast", 0x600000000#36, 0xFFFFF0000#36, none⟩,
    ⟨"downloadParameters", 0x700000000#36, 0xFFFFFFFFC#36, none⟩ ]

/-- The opcode field `RW[35:32]` (R96). -/
def opcodeField (w : RequestWord) : BitVec 4 := w.extractLsb' 32 4

/-- Not R99 (a): some row has the word's opcode. -/
def opcodeNamed (w : RequestWord) : Bool :=
  opcodeTable.any fun row => opcodeField row.pattern == opcodeField w

/-- Not R99 (b): some row's fixed bits, opcode and must-be-zero bits, are the word's. -/
def mbzClear (w : RequestWord) : Bool :=
  opcodeTable.any fun row => w &&& row.mask == row.pattern

/-- Not R99 (c): no row of the word's opcode finds ordinal 3 in its `ref` field. -/
def refNamed (w : RequestWord) : Bool :=
  opcodeTable.all fun row =>
    opcodeField row.pattern != opcodeField w ||
      match row.refAt with
      | none => true
      | some k => w.extractLsb' k 2 != 3#2

/-- A legal request word: none of R99's three conditions holds. -/
def legalWord (w : RequestWord) : Bool :=
  opcodeNamed w && mbzClear w && refNamed w

end Sys2Proof
end

