-- ==== Sys2Proof/Decode.lean ====
section
/-! DEFINITION. Decoding a request word (30_encoding.md R96 to R99, R102), total on all 36-bit words and rejecting by name,
and encoding an operation, its inverse with all must-be-zero bits 0 (R102). -/

namespace Sys2Proof

/-- Why a word is illegal: the three conditions of R99, tested in this order (DESIGN CHOICE, safe; log 21). Every one is
answered `IllegalRequest` (60_exceptions.md R210). -/
inductive DecodeError where
  /-- R99 (a): the opcode is `0x0` or `0x8` to `0xF`. -/
  | noSuchOpcode
  /-- R99 (b): a bit marked mbz is 1. -/
  | mbzBitSet
  /-- R99 (c): a `ref` field holds ordinal 3. -/
  | referenceOrdinal3
deriving DecidableEq, Repr

/-- The seven opcodes by name (R96). -/
inductive Opcode where
  | construct
  | initializeOp
  | setGain
  | setVoltageReference
  | setPowerMode
  | setOutputLevelVolatileFast
  | downloadParameters
deriving DecidableEq, Repr

/-- R96: the operation of an opcode value. -/
def opcodeOfBits (b : BitVec 4) : Option Opcode :=
  if b = 0x1#4 then some .construct
  else if b = 0x2#4 then some .initializeOp
  else if b = 0x3#4 then some .setGain
  else if b = 0x4#4 then some .setVoltageReference
  else if b = 0x5#4 then some .setPowerMode
  else if b = 0x6#4 then some .setOutputLevelVolatileFast
  else if b = 0x7#4 then some .downloadParameters
  else none

/-- R97: the bits marked mbz in the format of an opcode are all 0. -/
def mbzBitsZero (op : Opcode) (w : RequestWord) : Bool :=
  match op with
  | .construct => w.extractLsb' 31 1 == 0#1 && w.extractLsb' 16 1 == 0#1
  | .initializeOp => w.extractLsb' 0 32 == 0#32
  | .setGain => w.extractLsb' 1 31 == 0#31
  | .setVoltageReference => w.extractLsb' 2 30 == 0#30
  | .setPowerMode => w.extractLsb' 2 30 == 0#30
  | .setOutputLevelVolatileFast => w.extractLsb' 16 16 == 0#16
  | .downloadParameters => w.extractLsb' 2 30 == 0#30

/-- R98, `gain`. -/
def gainOfOrdinal (b : BitVec 1) : Gain :=
  if b = 0#1 then .x1 else .x2

/-- R98, `ref`: ordinal 3 is no value. -/
def referenceOfOrdinal (b : BitVec 2) : Option ReferenceMode :=
  if b = 0#2 then some .vddUnbuffered
  else if b = 1#2 then some .vrefUnbuffered
  else if b = 2#2 then some .vrefBuffered
  else none

/-- R98, `pd`. -/
def powerOfOrdinal (b : BitVec 2) : PowerMode :=
  if b = 0#2 then .normalOperation
  else if b = 1#2 then .powerDown1k
  else if b = 2#2 then .powerDown100k
  else .powerDown500k

/-- R98, `memt`. -/
def targetOfOrdinal (b : BitVec 2) : MemoryTarget :=
  if b = 0#2 then .volatileDacRegister
  else if b = 1#2 then .volatileCommand
  else if b = 2#2 then .allMemory
  else .volatileConfigurationBits

/-- The fields of a word whose opcode is known and whose mbz bits are 0 (R97, R98). -/
def decodeFields (op : Opcode) (w : RequestWord) : Except DecodeError Instr :=
  match op with
  | .construct =>
    match referenceOfOrdinal (w.extractLsb' 20 2) with
    | none => .error .referenceOrdinal3
    | some r =>
      .ok (.construct (w.extractLsb' 24 7) r (gainOfOrdinal (w.extractLsb' 17 1)) (powerOfOrdinal (w.extractLsb' 18 2))
        (targetOfOrdinal (w.extractLsb' 22 2)) (w.extractLsb' 0 16))
  | .initializeOp => .ok .initializeOp
  | .setGain => .ok (.setGain (gainOfOrdinal (w.extractLsb' 0 1)))
  | .setVoltageReference =>
    match referenceOfOrdinal (w.extractLsb' 0 2) with
    | none => .error .referenceOrdinal3
    | some r => .ok (.setVoltageReference r)
  | .setPowerMode => .ok (.setPowerMode (powerOfOrdinal (w.extractLsb' 0 2)))
  | .setOutputLevelVolatileFast => .ok (.setOutputLevelVolatileFast (w.extractLsb' 0 16))
  | .downloadParameters => .ok (.downloadParameters (targetOfOrdinal (w.extractLsb' 0 2)))

/-- R102: decoding a request word. -/
def decode (w : RequestWord) : Except DecodeError Instr :=
  match opcodeOfBits (w.extractLsb' 32 4) with
  | none => .error .noSuchOpcode
  | some op => if mbzBitsZero op w then decodeFields op w else .error .mbzBitSet

/-- R98, `gain`, the ordinal of a value. -/
def ordinalOfGain : Gain → BitVec 1
  | .x1 => 0#1
  | .x2 => 1#1

/-- R98, `ref`, the ordinal of a value. -/
def ordinalOfReference : ReferenceMode → BitVec 2
  | .vddUnbuffered => 0#2
  | .vrefUnbuffered => 1#2
  | .vrefBuffered => 2#2

/-- R98, `pd`, the ordinal of a value. -/
def ordinalOfPower : PowerMode → BitVec 2
  | .normalOperation => 0#2
  | .powerDown1k => 1#2
  | .powerDown100k => 2#2
  | .powerDown500k => 3#2

/-- R98, `memt`, the ordinal of a value. -/
def ordinalOfTarget : MemoryTarget → BitVec 2
  | .volatileDacRegister => 0#2
  | .volatileCommand => 1#2
  | .allMemory => 2#2
  | .volatileConfigurationBits => 3#2

/-- R97, R102: the request word of an operation, all mbz bits 0. -/
def encode : Instr → RequestWord
  | .construct a r g p m l =>
    0x1#4 ++ 0#1 ++ a ++ ordinalOfTarget m ++ ordinalOfReference r ++ ordinalOfPower p ++ ordinalOfGain g ++ 0#1 ++ l
  | .initializeOp => 0x2#4 ++ 0#32
  | .setGain g => 0x3#4 ++ 0#31 ++ ordinalOfGain g
  | .setVoltageReference r => 0x4#4 ++ 0#30 ++ ordinalOfReference r
  | .setPowerMode p => 0x5#4 ++ 0#30 ++ ordinalOfPower p
  | .setOutputLevelVolatileFast l => 0x6#4 ++ 0#16 ++ l
  | .downloadParameters m => 0x7#4 ++ 0#30 ++ ordinalOfTarget m

/-- The operation the decoder reads from a table word of `nbits` bits, bit 0 the least significant. The request port is
36 bits wide: a number with a higher bit set is no request word (DESIGN CHOICE, safe; log 18). -/
def decodeTableWord (nbits w : Nat) : Option Instr :=
  let v := w % 2 ^ nbits
  if v < 2 ^ 36 then
    match decode (BitVec.ofNat 36 v) with
    | .ok i => some i
    | .error _ => none
  else none

end Sys2Proof
end

