-- ==== Sys2Proof/Config.lean ====
section
/-! DEFINITION. What an instance fixes and what the environment chooses: the resolution variant (00_scope.md R6), the byte
selection of the 8-bit frame (20_memory.md R61), the status of a transaction (R53), and the two free constants that
stand for an open choice. -/

namespace Sys2Proof

/-- The resolution variant `VARIANT` (R6). -/
inductive Variant where
  | v8
  | v10
  | v12
deriving DecidableEq, Repr, Inhabited

/-- `LVL8_SEL`: which byte carries the level when the variant is `V8` (R7, R61). -/
inductive Lvl8Sel where
  | low
  | mid
deriving DecidableEq, Repr, Inhabited

/-- The transport's answer to `endTransaction`, reduced to two values (R53). -/
inductive Status where
  | noError
  | error
deriving DecidableEq, Repr, Inhabited

/-- FREE VALUE (DESIGN CHOICE, safe; log 2). The variant of the instance that comes out of reset: `OPEN` in R6, R7. -/
opaque Config.variant : Variant

/-- FREE VALUE (DESIGN CHOICE, safe; log 4). The status of the transaction with that number, counted from 0, where the
environment has not settled it beforehand: "an input of the step that no rule constrains" (R53). -/
opaque Config.transportStatus : Nat → Status

end Sys2Proof
end

