-- ==== Sys2Proof/Machine/State.lean ====
section
/-! DEFINITION. The state of the DCE (10_state.md R20, R38), the parameters of the instance (00_scope.md R6, R7), the inputs
of its environment, and the two observations a statement is made over: the transport trace (R11) and the response words
(30_encoding.md R95). -/

namespace Sys2Proof.Machine

/-- Why the machine stops. No run from reset reaches one of these by `step`. -/
inductive Fault where
  /-- Raised by the sequencer in `TRANSMIT` with `IDX` past the frame: a state the table of R178 has no row for.
  Safe: the model stops (DESIGN CHOICE; log 11). -/
  | idxPastFrame
  /-- Raised by the sequencer in `TRANSMIT` when the registers hold no value: R178 enters a transaction only when they
  hold values. Safe: the model stops (DESIGN CHOICE; log 11). -/
  | transactionWithoutRegisters
  /-- Raised by `hardwareReset`, which belongs to no step, while the sequencer is not `IDLE` (70_reset_and_hazards.md
  R231; 93_implementation_defined.md U8). Safe: the model stops. -/
  | resetInTransaction
deriving DecidableEq, Repr

/-- Why a step has no meaning. -/
inductive Refusal where
  /-- Raised by an arm of `exec` for an operation without a meaning: none is left. Safe. The spec's own refusals (R208) are
  responses, not this (log 10). -/
  | notModelled (mnemonic : String)
deriving DecidableEq, Repr

/-- The six registers, the source's DeviceConfiguration (R20). -/
structure Registers where
  /-- `ADDR` (R21) -/
  addr : BusAddress
  /-- `REF` (R22) -/
  ref : ReferenceMode
  /-- `GAIN` (R23) -/
  gain : Gain
  /-- `PD` (R24) -/
  pd : PowerMode
  /-- `MEMT` (R25) -/
  memt : MemoryTarget
  /-- `LEVEL` (R26): the value the host gave, all 16 bits, never masked -/
  level : Level
deriving DecidableEq, Repr

/-- An event of the transport trace `T` (R11). -/
inductive Event where
  | beginTransaction (address : BusAddress)
  | writeByte (byte : Byte)
  | endTransaction (status : Status)
deriving DecidableEq, Repr

/-- The bus-touching operation that `CONFIGURE` carries out (R178, R179; DEDUCED, log 12). -/
inductive BusOp where
  | initializeOp
  | download (memoryTarget : MemoryTarget)
deriving DecidableEq, Repr

/-- The sequencer phase `SEQ` (R38, R178) with what belongs to it: `CONFIGURE` has the operation taken, `TRANSMIT` the
byte index `IDX`. -/
inductive Seq where
  | idle
  | configure (op : BusOp)
  | transmit (idx : Nat)
  | acknowledge
deriving DecidableEq, Repr

/-- The four values of `SEQ` alone (R38). -/
inductive Phase where
  | idle
  | configure
  | transmit
  | acknowledge
deriving DecidableEq, Repr

/-- The machine: the DCE, its parameters, the inputs of its environment, and the observations. -/
structure State where
  /-- The six registers, or no value before the first accepted `construct` (R30, R39). -/
  regs : Option Registers
  /-- The sequencer (R38). -/
  seq : Seq
  /-- The parameter `VARIANT` (R6). -/
  variant : Variant
  /-- The parameter `LVL8_SEL` (R7, R61). -/
  lvl8Sel : Lvl8Sel
  /-- Host: the request words still to be issued, the head at the request port (R29, R95). -/
  requests : List RequestWord
  /-- Host: the index into its list of operations (R29). -/
  index : Nat
  /-- Transport: how many more calls it completes; `none` when it completes every call (R175, R247). -/
  completes : Option Nat
  /-- Transport: the statuses already settled for the next transactions (R53). -/
  script : List Status
  /-- Transport: the number of transactions ended, the argument of the free status (R53). -/
  drawn : Nat
  /-- Observation: the trace `T`, oldest event first (R11). -/
  trace : List Event
  /-- Observation: the response words given so far, oldest first (R95, R100). -/
  responses : List ResponseWord
deriving DecidableEq, Repr

/-- Power-on (R39, R231): the registers hold no value, the sequencer is `IDLE`, the trace is empty. `VARIANT` is the free
constant of Config; the fields of the environment stand as the log says (logs 2 to 5, 8). -/
def State.reset : State where
  regs := none
  seq := .idle
  variant := Config.variant
  lvl8Sel := .low
  requests := []
  index := 0
  completes := none
  script := []
  drawn := 0
  trace := []
  responses := []

/-- `SEQ` (R38). -/
def State.phase (s : State) : Phase :=
  match s.seq with
  | .idle => .idle
  | .configure _ => .configure
  | .transmit _ => .transmit
  | .acknowledge => .acknowledge

/-- `IDX` (R38): 0 outside `TRANSMIT`. -/
def State.idx (s : State) : Nat :=
  match s.seq with
  | .idle => 0
  | .configure _ => 0
  | .transmit i => i
  | .acknowledge => 0

end Sys2Proof.Machine
end

