-- ==== Sys2Proof/Machine/Flags.lean ====
section
/-! DEFINITION. The result bits of an operation. The DCE has no stored flags (10_state.md R37): `refused`, `ok`, `reason` and
the result byte are outputs, packed into the response word `RSP` (30_encoding.md R100). -/

namespace Sys2Proof.Machine

/-- Why a request is refused (60_exceptions.md R209, R210). -/
inductive Reason where
  | illegalRequest
  | notConstructed
deriving DecidableEq, Repr

/-- The result of a request (R100): what the bits `refused`, `ok`, `reason` and `rbyte` say together. -/
inductive Response where
  /-- `return ok(v)`; an operation without a result byte returns 0. -/
  | ok (rbyte : Byte)
  /-- `raise BusTransactionFailed` (R200). -/
  | busTransactionFailed
  /-- `refuse <Reason>` (R208). -/
  | refused (reason : Reason)
deriving DecidableEq, Repr

/-- R53, R100, R200: the result of an operation that touches the bus, by the transport's status alone. -/
def responseOfStatus : Status → Response
  | .noError => .ok 0#8
  | .error => .busTransactionFailed

/-- R100: bit 11. -/
def Response.refusedBit : Response → BitVec 1
  | .ok _ => 0#1
  | .busTransactionFailed => 0#1
  | .refused _ => 1#1

/-- R100: bit 10. -/
def Response.okBit : Response → BitVec 1
  | .ok _ => 1#1
  | .busTransactionFailed => 0#1
  | .refused _ => 0#1

/-- R100: bits 9 and 8, 1 for `IllegalRequest`, 2 for `NotConstructed`. -/
def Response.reasonBits : Response → BitVec 2
  | .ok _ => 0#2
  | .busTransactionFailed => 0#2
  | .refused .illegalRequest => 1#2
  | .refused .notConstructed => 2#2

/-- R100: bits 7 to 0. -/
def Response.rbyteBits : Response → Byte
  | .ok b => b
  | .busTransactionFailed => 0#8
  | .refused _ => 0#8

/-- R100: the response word. -/
def Response.word (r : Response) : ResponseWord :=
  r.refusedBit ++ r.okBit ++ r.reasonBits ++ r.rbyteBits

end Sys2Proof.Machine
end

