-- ==== Sys2Proof/Machine/Operands.lean ====
section
/-! DEFINITION. What goes on the wire: the command byte (30_encoding.md R81 to R88; 10_state.md R31), the wire level and its
bytes (R34 to R36; 20_memory.md R59 to R61) and the frame (R62, R80). All of it is derived, nothing is stored (R28). -/

namespace Sys2Proof.Machine

/-- R81: `VREF1,VREF0`. -/
def encRef : ReferenceMode → BitVec 2
  | .vddUnbuffered => 0b00#2
  | .vrefUnbuffered => 0b10#2
  | .vrefBuffered => 0b11#2

/-- R82: `G`. -/
def encGain : Gain → BitVec 1
  | .x1 => 0b0#1
  | .x2 => 0b1#1

/-- R83: `PD1,PD0`. -/
def encPd : PowerMode → BitVec 2
  | .normalOperation => 0b00#2
  | .powerDown1k => 0b01#2
  | .powerDown100k => 0b10#2
  | .powerDown500k => 0b11#2

/-- R84: `C2,C1,C0`. -/
def encMemT : MemoryTarget → BitVec 3
  | .volatileDacRegister => 0b000#3
  | .volatileCommand => 0b010#3
  | .allMemory => 0b011#3
  | .volatileConfigurationBits => 0b100#3

/-- R85: the command byte of four settings. -/
def encodeCommand (mt : MemoryTarget) (r : ReferenceMode) (p : PowerMode) (g : Gain) : Byte :=
  encMemT mt ++ encRef r ++ encPd p ++ encGain g

/-- R31, R32: `CMD`, a function of the four settings held. -/
def commandByte (x : Registers) : Byte := encodeCommand x.memt x.ref x.pd x.gain

/-- R81 read backwards: the code `0,1` is the encoding of no value. -/
def decRef (b : BitVec 2) : Option ReferenceMode :=
  if b = 0b00#2 then some .vddUnbuffered
  else if b = 0b10#2 then some .vrefUnbuffered
  else if b = 0b11#2 then some .vrefBuffered
  else none

/-- R82 read backwards. -/
def decGain (b : BitVec 1) : Gain :=
  if b = 0b0#1 then .x1 else .x2

/-- R83 read backwards. -/
def decPd (b : BitVec 2) : PowerMode :=
  if b = 0b00#2 then .normalOperation
  else if b = 0b01#2 then .powerDown1k
  else if b = 0b10#2 then .powerDown100k
  else .powerDown500k

/-- R84 read backwards: the codes 1, 5, 6 and 7 are the encoding of no value. -/
def decMemT (b : BitVec 3) : Option MemoryTarget :=
  if b = 0b000#3 then some .volatileDacRegister
  else if b = 0b010#3 then some .volatileCommand
  else if b = 0b011#3 then some .allMemory
  else if b = 0b100#3 then some .volatileConfigurationBits
  else none

/-- R88: `Decode`, the partial inverse of `Encode`, in the argument order of `encodeCommand`. No operation uses it. -/
def decodeCommand (b : Byte) : Option (MemoryTarget × ReferenceMode × PowerMode × Gain) :=
  match decMemT (b.extractLsb' 5 3), decRef (b.extractLsb' 3 2) with
  | some m, some r => some (m, r, decPd (b.extractLsb' 1 2), decGain (b.extractLsb' 0 1))
  | _, _ => none

/-- R59: `LMASK(VARIANT)`. It clears low bits only: bits 15 to 12 of a level above 4095 stay (R64; unsafe, log 14). -/
def lmask : Variant → Level
  | .v12 => 0xFFFF#16
  | .v10 => 0xFFFC#16
  | .v8 => 0xFFF0#16

/-- R59: the level step of a variant. -/
def levelStep : Variant → Nat
  | .v12 => 1
  | .v10 => 4
  | .v8 => 16

/-- R34: `WL` of a level. -/
def wireLevel (v : Variant) (l : Level) : Level := l &&& lmask v

/-- R35: `LVL_HI` of a wire level. -/
def lvlHi (wl : Level) : Byte := wl.extractLsb' 8 8

/-- R36: `LVL_LO` of a wire level. -/
def lvlLo (wl : Level) : Byte := wl.extractLsb' 0 8

/-- R61: `WL[11:4]`, the level byte of `V8` with `LVL8_SEL = MID`. -/
def lvlMid (wl : Level) : Byte := wl.extractLsb' 4 8

/-- R61: the one level byte of the `V8` frame (DESIGN CHOICE, unsafe; log 3). -/
def lvl8Byte (sel : Lvl8Sel) (wl : Level) : Byte :=
  match sel with
  | .low => lvlLo wl
  | .mid => lvlMid wl

/-- R61: `LB`, the level bytes of a frame, first transmitted first. -/
def levelBytes (v : Variant) (sel : Lvl8Sel) (l : Level) : List Byte :=
  match v with
  | .v12 => [lvlHi (wireLevel .v12 l), lvlLo (wireLevel .v12 l)]
  | .v10 => [lvlHi (wireLevel .v10 l), lvlLo (wireLevel .v10 l)]
  | .v8 => [lvl8Byte sel (wireLevel .v8 l)]

/-- R62, R80: the length `n` of a frame, by the variant alone. -/
def frameLength : Variant → Nat
  | .v12 => 3
  | .v10 => 3
  | .v8 => 2

/-- R62, R80: `FRAME = [CMD] ++ LB`. -/
def frame (v : Variant) (sel : Lvl8Sel) (x : Registers) : List Byte :=
  commandByte x :: levelBytes v sel x.level

/-- R160: the byte `setOutputLevelVolatileFast` returns: `LB[0]` for `V8`, `LVL_LO` otherwise. -/
def fastPathByte (v : Variant) (sel : Lvl8Sel) (l : Level) : Byte :=
  match v with
  | .v12 => lvlLo (wireLevel .v12 l)
  | .v10 => lvlLo (wireLevel .v10 l)
  | .v8 => lvl8Byte sel (wireLevel .v8 l)

end Sys2Proof.Machine
end

