-- ==== Sys2Proof/Machine/Ops.lean ====
section
/-! DEFINITION. The operations every meaning is written over: the request and response ports (30_encoding.md R95), the
register file (10_state.md R27, R30), the transport (20_memory.md R50 to R54), the one error and the two refusals
(60_exceptions.md R200 to R210), and the hardware reset (70_reset_and_hazards.md R231). -/

namespace Sys2Proof.Machine

/-- A response is given and the request it answers leaves the port, so that the host's index goes on by one "whatever its
result" (R29, R95, R100; DESIGN CHOICE, log 9). -/
def State.answer (rsp : Response) (s : State) : State :=
  { s with responses := s.responses ++ [rsp.word], requests := s.requests.tail, index := s.index + 1 }

/-- `return ok()`: accepted, no result byte (R100). -/
def State.answerOk (s : State) : State := s.answer (.ok 0#8)

/-- `raise BusTransactionFailed` (R200 to R203): the one exception of the DCE. The response is all it leaves: nothing is
saved, no mode changes, no handler is entered, nothing already written is undone. There is no return from it (R204). -/
def State.raiseBusTransactionFailed (s : State) : State := s.answer .busTransactionFailed

/-- `refuse <Reason>` (R208): the response and nothing else. -/
def State.refuse (reason : Reason) (s : State) : State := s.answer (.refused reason)

/-- `x[...] <- ...` (R11): the register file after a write. -/
def State.setRegs (x : Registers) (s : State) : State := { s with regs := some x }

/-- The first line of every operation but `construct`: `if the registers hold no value: refuse NotConstructed` (R30,
R209). -/
def withRegisters (s : State) (run : Registers → State) : Host.Outcome State Fault Refusal :=
  match s.regs with
  | none => .next (s.refuse .notConstructed)
  | some x => .next (run x)

/-- The transport completes the next `n` calls (R175, R247). -/
def State.canComplete (n : Nat) (s : State) : Bool :=
  match s.completes with
  | none => true
  | some k => decide (n ≤ k)

/-- The transport has completed `n` calls. -/
def State.completeCalls (n : Nat) (s : State) : State :=
  { s with completes := s.completes.map fun k => k - n }

/-- The status the transport gives to the transaction that ends now (R53): what the environment has settled, else the
free constant of Config at the transaction's number. -/
def State.status (s : State) : Status :=
  match s.script with
  | st :: _ => st
  | [] => Config.transportStatus s.drawn

/-- The status of a transaction has been taken. -/
def State.takeStatus (s : State) : State :=
  { s with script := s.script.tail, drawn := s.drawn + 1 }

/-- `emit`: events appended to the trace `T` (R11). -/
def State.emit (es : List Event) (s : State) : State := { s with trace := s.trace ++ es }

/-- The calls of a transaction before `endTransaction`, in order (R54): `beginTransaction`, then one `writeByte` for each
byte. -/
def transactionCalls (a : BusAddress) (bs : List Byte) : List Event :=
  .beginTransaction a :: bs.map .writeByte

/-- Where the sequencer stands when `k` calls of a transaction of `n` bytes have been completed (R178). -/
def seqAfterCalls (n k : Nat) : Seq :=
  if k ≤ n then .transmit k else .acknowledge

/-- `MemWrite(a, n, bs)` (R11, R54): one whole transaction, with the status the transport returns. When the transport does
not complete all its calls, the DCE stays in the phase it has reached (R175) and there is no status: the calls
completed are in the trace (DEDUCED, log 7), and the sequencer says where it waits. -/
def memWrite (a : BusAddress) (bs : List Byte) (s : State) : Option Status × State :=
  if s.canComplete (bs.length + 2) then
    (some s.status,
      ((s.emit (transactionCalls a bs ++ [.endTransaction s.status])).completeCalls (bs.length + 2)).takeStatus)
  else
    let k := s.completes.getD 0
    (none, { (s.emit ((transactionCalls a bs).take k)).completeCalls k with seq := seqAfterCalls bs.length k })

/-- `WriteCommand(mt)` (R171): the frame of the registers with the target `mt`, sent to `ADDR`. It writes no register. -/
def writeCommand (mt : MemoryTarget) (x : Registers) (s : State) : Option Status × State :=
  memWrite x.addr (frame s.variant s.lvl8Sel { x with memt := mt }) s

/-- The end of a bus-touching operation (R121, R170): success, `BusTransactionFailed`, or no response at all when the
transport has not completed its calls (R175). -/
def finishWrite : Option Status × State → State
  | (some .noError, s) => s.answerOk
  | (some .error, s) => s.raiseBusTransactionFailed
  | (none, s) => s

/-- The request at the port, decoded (R95, R102); none when the host has no request left. -/
def requestAtPort (s : State) : Option (Except DecodeError Instr) :=
  match s.requests with
  | [] => none
  | w :: _ => some (decode w)

/-- What the DCE does in `IDLE` (R95, R99, R206): without a request it stays as it is (log 8); an illegal word is refused
before anything else is tested; a legal one is given to `run`. -/
def serveRequest (run : Instr → State → Host.Outcome State Fault Refusal) (s : State) :
    Host.Outcome State Fault Refusal :=
  match requestAtPort s with
  | none => .next s
  | some (.error _) => .next (s.refuse .illegalRequest)
  | some (.ok i) => run i s

/-- A hardware reset input, if an implementation has one (R231): at an operation boundary the registers hold no value
afterwards; in mid-transaction it is the fault U8 names. It belongs to no step (log 13). -/
def hardwareReset (s : State) : Host.Outcome State Fault Refusal :=
  match s.seq with
  | .idle => .next { s with regs := none }
  | .configure _ => .fault .resetInTransaction
  | .transmit _ => .fault .resetInTransaction
  | .acknowledge => .fault .resetInTransaction

end Sys2Proof.Machine
end

