-- ==== Sys2Proof/Machine/Download.lean ====
section
/-! DEFINITION. `downloadParameters` (43_download_write_protocol.md R170). -/

namespace Sys2Proof.Machine

/-- R170: `MEMT` is written first, then one full write is made; a failure does not undo the write (R202). -/
def execDownloadParameters (mt : MemoryTarget) (s : State) : Host.Outcome State Fault Refusal :=
  withRegisters s fun x =>
    finishWrite (writeCommand mt { x with memt := mt } (s.setRegs { x with memt := mt }))

end Sys2Proof.Machine
end

