-- ==== Sys2Proof/Machine/LevelFast.lean ====
section
/-! DEFINITION. The level fast path (42_level_fast.md R160 to R163), in the mode `STAGE_ONLY`. -/

namespace Sys2Proof.Machine

/-- R160: the level is staged as given, nothing is sent, and one byte of its wire form is the result (log 15). -/
def execSetOutputLevelVolatileFast (l : Level) (s : State) : Host.Outcome State Fault Refusal :=
  withRegisters s fun x =>
    (s.setRegs { x with level := l }).answer (.ok (fastPathByte s.variant s.lvl8Sel l))

end Sys2Proof.Machine
end

