-- ==== Sys2Proof/Machine/Lifecycle.lean ====
section
/-! DEFINITION. `construct` and `initialize` (40_construct_initialize.md R120 to R123). -/

namespace Sys2Proof.Machine

/-- R120, R122: all six registers are replaced, whatever they held; no bus traffic; always accepted. -/
def execConstruct (a : BusAddress) (r : ReferenceMode) (g : Gain) (p : PowerMode) (m : MemoryTarget) (l : Level)
    (s : State) : Host.Outcome State Fault Refusal :=
  .next (s.setRegs ⟨a, r, g, p, m, l⟩).answerOk

/-- R121, R123: one full write with the target held; it writes no register and may be repeated. -/
def execInitialize (s : State) : Host.Outcome State Fault Refusal :=
  withRegisters s fun x => finishWrite (writeCommand x.memt x s)

end Sys2Proof.Machine
end

