-- ==== Sys2Proof/Machine/Setters.lean ====
section
/-! DEFINITION. The three configuration setters (41_config_setters.md R140 to R144): one register, no bus traffic, always
successful. -/

namespace Sys2Proof.Machine

/-- R140. -/
def execSetGain (g : Gain) (s : State) : Host.Outcome State Fault Refusal :=
  withRegisters s fun x => (s.setRegs { x with gain := g }).answerOk

/-- R141. -/
def execSetVoltageReference (r : ReferenceMode) (s : State) : Host.Outcome State Fault Refusal :=
  withRegisters s fun x => (s.setRegs { x with ref := r }).answerOk

/-- R142. -/
def execSetPowerMode (p : PowerMode) (s : State) : Host.Outcome State Fault Refusal :=
  withRegisters s fun x => (s.setRegs { x with pd := p }).answerOk

end Sys2Proof.Machine
end

