-- ==== Sys2Proof/Machine/Dispatch.lean ====
section
/-! DEFINITION. One arm per operation of the opcode table (30_encoding.md R96): the one-step reading of 00_scope.md R9. -/

namespace Sys2Proof.Machine

-- exec gives an operation its whole effect; whether the DCE takes a request at all is decided in step (R95, log 19).
def exec (i : Instr) (s : State) : Host.Outcome State Fault Refusal :=
  match i with
  | .construct a r g p m l => Sys2Proof.Machine.execConstruct a r g p m l s
  | .initializeOp => Sys2Proof.Machine.execInitialize s
  | .setGain g => Sys2Proof.Machine.execSetGain g s
  | .setVoltageReference r => Sys2Proof.Machine.execSetVoltageReference r s
  | .setPowerMode p => Sys2Proof.Machine.execSetPowerMode p s
  | .setOutputLevelVolatileFast l => Sys2Proof.Machine.execSetOutputLevelVolatileFast l s
  | .downloadParameters mt => Sys2Proof.Machine.execDownloadParameters mt s

end Sys2Proof.Machine
end

