-- ==== Sys2Proof/Machine/Sequencer.lean ====
section
/-! DEFINITION. The sequencer (43_download_write_protocol.md R178 to R181): the transitions out of `CONFIGURE`, `TRANSMIT`
and `ACKNOWLEDGE`, one transport call a step. -/

namespace Sys2Proof.Machine

/-- R179, `CONFIGURE`: the write of `MEMT` for `downloadParameters`, nothing for `initialize`; then `TRANSMIT` with
`IDX = 0`. -/
def seqConfigure (op : BusOp) (s : State) : State :=
  match op with
  | .initializeOp => { s with seq := .transmit 0 }
  | .download mt => { s with regs := s.regs.map fun x => { x with memt := mt }, seq := .transmit 0 }

/-- R180, `TRANSMIT`: with `IDX = 0` the call `beginTransaction(x[ADDR])`, with `IDX = i >= 1` the call
`writeByte(FRAME[i-1])`, so the call numbered `IDX` of the transaction; the last one leads to `ACKNOWLEDGE`. The step is
taken when the transport completes the call; until then nothing changes (R175;
DESIGN CHOICE, safe, log 6). -/
def seqTransmit (idx : Nat) (s : State) : Host.Outcome State Fault Refusal :=
  match s.regs with
  | none => .fault .transactionWithoutRegisters
  | some x =>
    let bs := frame s.variant s.lvl8Sel x
    match (transactionCalls x.addr bs)[idx]? with
    | none => .fault .idxPastFrame
    | some call =>
      if s.canComplete 1 then
        .next { (s.emit [call]).completeCalls 1 with seq := seqAfterCalls bs.length (idx + 1) }
      else .next s

/-- R181, `ACKNOWLEDGE`: `st <- emit End`, the response, and back to `IDLE`, once the transport completes the call. -/
def seqAcknowledge (s : State) : State :=
  if s.canComplete 1 then
    finishWrite
      (some s.status,
        { ((s.emit [.endTransaction s.status]).completeCalls 1).takeStatus with seq := .idle })
  else s

/-- R178: the transition out of the phase the sequencer is in. `IDLE` takes requests and is not handled here. -/
def advanceSequencer (s : State) : Host.Outcome State Fault Refusal :=
  match s.seq with
  | .idle => .next s
  | .configure op => .next (seqConfigure op s)
  | .transmit idx => seqTransmit idx s
  | .acknowledge => .next (seqAcknowledge s)

end Sys2Proof.Machine
end

