-- ==== Sys2Proof/Machine/Stepwise.lean ====
section
/-! DEFINITION. The stepwise reading (43_download_write_protocol.md R178, R182): the same machine with the sequencer's
transitions as its steps. -/

namespace Sys2Proof.Machine

/-- The operations that touch the bus (R54, R178). -/
def busOperation : Instr → Option BusOp
  | .construct _ _ _ _ _ _ => none
  | .initializeOp => some .initializeOp
  | .setGain _ => none
  | .setVoltageReference _ => none
  | .setPowerMode _ => none
  | .setOutputLevelVolatileFast _ => none
  | .downloadParameters mt => some (.download mt)

/-- R178, the two rows of `IDLE`: an accepted bus-touching operation leads to `CONFIGURE`; any other request is carried out
or refused in this one step. -/
def takeRequest (i : Instr) (s : State) : Host.Outcome State Fault Refusal :=
  match busOperation i, s.regs with
  | some op, some _ => .next { s with seq := .configure op }
  | some _, none => exec i s
  | none, _ => exec i s

/-- One step of the stepwise reading (R178). -/
def seqStep (s : State) : Host.Outcome State Fault Refusal :=
  match s.seq with
  | .idle => serveRequest takeRequest s
  | .configure _ => advanceSequencer s
  | .transmit _ => advanceSequencer s
  | .acknowledge => advanceSequencer s

/-- `k` steps by a step function, stopping at the first fault or refusal. -/
def iterate (f : State → Host.Outcome State Fault Refusal) : Nat → State → Host.Outcome State Fault Refusal
  | 0, s => .next s
  | k + 1, s =>
    match f s with
    | .next t => iterate f k t
    | .fault r => .fault r
    | .refused r => .refused r

/-- `k` steps of the stepwise reading. -/
def runSeq (k : Nat) (s : State) : Host.Outcome State Fault Refusal := iterate seqStep k s

/-- A list of operations issued in order, each after the one before it, whatever its result (R29, R65). -/
def runOps : List Instr → State → Host.Outcome State Fault Refusal
  | [], s => .next s
  | i :: is, s =>
    match exec i s with
    | .next t => runOps is t
    | .fault f => .fault f
    | .refused r => .refused r

end Sys2Proof.Machine
end

