-- ==== Sys2Proof/Machine/Step.lean ====
section
/-! DEFINITION. One step of the machine (00_scope.md R9): in `IDLE` one operation, whole; in any other phase, which only a
transport that has not completed its calls leaves behind (43_download_write_protocol.md R175), the sequencer goes on. -/

namespace Sys2Proof.Machine

/-- One step. A request is taken in `IDLE` only (30_encoding.md R95). -/
def step (s : State) : Host.Outcome State Fault Refusal :=
  match s.seq with
  | .idle => serveRequest exec s
  | .configure _ => advanceSequencer s
  | .transmit _ => advanceSequencer s
  | .acknowledge => advanceSequencer s

/-- The request word put at the head of the host's list, with the sequencer in `IDLE`, so that the next step takes it
(log 8). -/
def State.withFetchWord (s : State) (nbits w : Nat) : State :=
  { s with requests := BitVec.ofNat 36 (w % 2 ^ nbits) :: s.requests, seq := .idle }

end Sys2Proof.Machine
end

