-- ==== Sys2Proof/Machine/Text.lean ====
section
/-! DEFINITION. The textual form of an operation (30_encoding.md R101): the source's call syntax, one operation a line. The
machine does not read it: it is how a listing names an operation. Blanks are passed over and capitals matter
(DESIGN CHOICE, safe; log 20). -/

namespace Sys2Proof.Machine

/-- The value of a name in a list of names. -/
def valueOfName {α : Type} (table : List (String × α)) (name : List Char) : Option α :=
  match table with
  | [] => none
  | (n, v) :: rest => if n.toList = name then some v else valueOfName rest name

/-- R98, R101: the names of the reference modes. -/
def referenceNames : List (String × ReferenceMode) :=
  [("VDD_UNBUFFERED", .vddUnbuffered), ("VREF_UNBUFFERED", .vrefUnbuffered), ("VREF_BUFFERED", .vrefBuffered)]

/-- R98, R101: the names of the gains. -/
def gainNames : List (String × Gain) := [("X1", .x1), ("X2", .x2)]

/-- R98, R101: the names of the power modes, and the short names accepted for them. -/
def powerNames : List (String × PowerMode) :=
  [("NORMAL_OPERATION", .normalOperation), ("POWER_DOWN_1K", .powerDown1k), ("POWER_DOWN_100K", .powerDown100k),
    ("POWER_DOWN_500K", .powerDown500k), ("NORMAL", .normalOperation), ("1k", .powerDown1k), ("100k", .powerDown100k),
    ("500k", .powerDown500k)]

/-- R98, R101: the names of the memory targets, and the alias of the first (90_conflicts.md C2). -/
def targetNames : List (String × MemoryTarget) :=
  [("VOLATILE_DAC_REGISTER", .volatileDacRegister), ("VOLATILE_COMMAND", .volatileCommand), ("ALL_MEMORY", .allMemory),
    ("VOLATILE_CONFIGURATION_BITS", .volatileConfigurationBits),
    ("WRITE_VOLATILE_DAC_REGISTER", .volatileDacRegister)]

/-- The value of a digit in base `base`. -/
def digitValue (base : Nat) (c : Char) : Option Nat :=
  let n := c.toNat
  let v :=
    if 48 ≤ n ∧ n ≤ 57 then some (n - 48)
    else if 65 ≤ n ∧ n ≤ 70 then some (n - 55)
    else if 97 ≤ n ∧ n ≤ 102 then some (n - 87)
    else none
  v.bind fun d => if d < base then some d else none

/-- A number from its digits, most significant first, `acc` the value of the digits already read. -/
def numberFrom (base acc : Nat) : List Char → Option Nat
  | [] => some acc
  | c :: cs => (digitValue base c).bind fun d => numberFrom base (base * acc + d) cs

/-- R101: a number, decimal or `0x` hexadecimal. -/
def parseNumber : List Char → Option Nat
  | [] => none
  | ['0', 'x'] => none
  | '0' :: 'x' :: c :: cs => numberFrom 16 0 (c :: cs)
  | c :: cs => numberFrom 10 0 (c :: cs)

/-- A number that fits in `n` bits. -/
def parseBits (n : Nat) (text : List Char) : Option (BitVec n) :=
  (parseNumber text).bind fun v => if v < 2 ^ n then some (BitVec.ofNat n v) else none

/-- The pieces of a text between commas. -/
def splitCommas : List Char → List (List Char)
  | [] => [[]]
  | c :: cs =>
    if c = ',' then [] :: splitCommas cs
    else
      match splitCommas cs with
      | [] => [[c]]
      | piece :: pieces => (c :: piece) :: pieces

/-- The arguments of a call from the text after its opening bracket; the closing bracket is the last character. -/
def parseArguments (text : List Char) : Option (List (List Char)) :=
  match text.reverse with
  | ')' :: inside => if inside = [] then some [] else some (splitCommas inside.reverse)
  | _ => none

/-- A line as a name and its arguments. -/
def parseCall (line : String) : Option (List Char × List (List Char)) :=
  let text := line.toList.filter fun c => c != ' '
  match text.dropWhile fun c => c != '(' with
  | [] => none
  | _ :: rest => (parseArguments rest).map fun args => (text.takeWhile (fun c => c != '('), args)

/-- R101: the operation a line names. -/
def parseOperation (line : String) : Option Instr :=
  (parseCall line).bind fun call =>
    if call.1 = "construct".toList then
      match call.2 with
      | [a, r, g, p, m, l] => do
        return .construct (← parseBits 7 a) (← valueOfName referenceNames r) (← valueOfName gainNames g)
          (← valueOfName powerNames p) (← valueOfName targetNames m) (← parseBits 16 l)
      | _ => none
    else if call.1 = "initialize".toList then
      match call.2 with
      | [] => some .initializeOp
      | _ => none
    else if call.1 = "setGain".toList then
      match call.2 with
      | [g] => (valueOfName gainNames g).map .setGain
      | _ => none
    else if call.1 = "setVoltageReference".toList then
      match call.2 with
      | [r] => (valueOfName referenceNames r).map .setVoltageReference
      | _ => none
    else if call.1 = "setPowerMode".toList then
      match call.2 with
      | [p] => (valueOfName powerNames p).map .setPowerMode
      | _ => none
    else if call.1 = "setOutputLevelVolatileFast".toList then
      match call.2 with
      | [l] => (parseBits 16 l).map .setOutputLevelVolatileFast
      | _ => none
    else if call.1 = "downloadParameters".toList then
      match call.2 with
      | [m] => (valueOfName targetNames m).map .downloadParameters
      | _ => none
    else none

end Sys2Proof.Machine
end

