-- ==== Sys2Proof/Safety.lean ====
section
/-! DEFINITION. What counts as a safe run: the trace is a concatenation of whole write transactions (43_download_write_protocol.md
R172), the last one open exactly as far as the sequencer says, and a transaction is made only when the registers hold
values (10_state.md R30). -/

namespace Sys2Proof.Machine

/-- How far a reader of the trace is: outside a transaction, or inside one with `k` bytes written. -/
inductive TraceScan where
  | outside
  | inside (k : Nat)
deriving DecidableEq, Repr

/-- R172: what the last byte of a frame looks like: bits 1 and 0 are zero for `V10`, bits 3 to 0 for `V8` with
`LVL8_SEL = LOW`. -/
def lastByteMasked (v : Variant) (sel : Lvl8Sel) (b : Byte) : Bool :=
  match v with
  | .v12 => true
  | .v10 => b.extractLsb' 0 2 == 0#2
  | .v8 =>
    match sel with
    | .low => b.extractLsb' 0 4 == 0#4
    | .mid => true

/-- R87, R172: the byte numbered `k` of a frame may be `b`: a command byte has a meaning, the last byte is masked. -/
def frameByteOk (v : Variant) (sel : Lvl8Sel) (k : Nat) (b : Byte) : Bool :=
  (k != 0 || (decodeCommand b).isSome) && (k + 1 != frameLength v || lastByteMasked v sel b)

/-- One event read: `none` when R172 forbids it there. -/
def scanEvent (v : Variant) (sel : Lvl8Sel) (at? : Option TraceScan) (e : Event) : Option TraceScan :=
  match at?, e with
  | some .outside, .beginTransaction _ => some (.inside 0)
  | some (.inside k), .writeByte b =>
    if k < frameLength v ∧ frameByteOk v sel k b then some (.inside (k + 1)) else none
  | some (.inside k), .endTransaction _ => if k = frameLength v then some .outside else none
  | _, _ => none

/-- A whole trace read from its start. -/
def scanTrace (v : Variant) (sel : Lvl8Sel) (t : List Event) : Option TraceScan :=
  t.foldl (scanEvent v sel) (some .outside)

/-- Where the trace must be when the sequencer is in a phase (R178). -/
def scanOfSeq (v : Variant) : Seq → TraceScan
  | .idle => .outside
  | .configure _ => .outside
  | .transmit 0 => .outside
  | .transmit (i + 1) => .inside i
  | .acknowledge => .inside (frameLength v)

/-- The sequencer is in a state of the table of R178: outside `IDLE` the registers hold values, and `IDX` is at most the
length of the frame. -/
def seqLegal (s : State) : Bool :=
  match s.seq with
  | .idle => true
  | .configure _ => s.regs.isSome
  | .transmit i => s.regs.isSome && decide (i ≤ frameLength s.variant)
  | .acknowledge => s.regs.isSome

/-- The invariant of a run: the sequencer is legal, the trace is well formed and agrees with it, and there has been one
response for each operation the host has counted (R95, R172, R178). -/
def RunInvariant (s : State) : Prop :=
  seqLegal s = true ∧ scanTrace s.variant s.lvl8Sel s.trace = some (scanOfSeq s.variant s.seq) ∧
    s.responses.length = s.index

/-- R64: the premise a claim about the DAC's output should take. -/
def levelInRange (l : Level) : Bool := l.toNat ≤ 4095

end Sys2Proof.Machine
end

