-- ==== Sys2Proof/Certificates/Slice0/Obligations.lean ====
section
/-! DEFINITION. The statements for the provers, each a rule of the spec or a law that follows from several. -/

open Sys2Proof Sys2Proof.Machine

/-! ## The command byte -/

/-- R81: the reference field, its code that names no value, and its place in the command byte. -/
def Obligations.ReferenceFieldOfCommandByte : Prop :=
  encRef .vddUnbuffered = 0#2 ∧ encRef .vrefUnbuffered = 2#2 ∧ encRef .vrefBuffered = 3#2 ∧
    (∀ r, encRef r ≠ 1#2) ∧ ∀ x : Registers, (commandByte x).extractLsb' 3 2 = encRef x.ref

/-- R82: the gain field and its place in the command byte. -/
def Obligations.GainFieldOfCommandByte : Prop :=
  encGain .x1 = 0#1 ∧ encGain .x2 = 1#1 ∧ ∀ x : Registers, (commandByte x).extractLsb' 0 1 = encGain x.gain

/-- R83: the power-down field and its place in the command byte. -/
def Obligations.PowerDownFieldOfCommandByte : Prop :=
  encPd .normalOperation = 0#2 ∧ encPd .powerDown1k = 1#2 ∧ encPd .powerDown100k = 2#2 ∧
    encPd .powerDown500k = 3#2 ∧ ∀ x : Registers, (commandByte x).extractLsb' 1 2 = encPd x.pd

/-- R84: the memory-target field, its codes that name no value, and its place in the command byte. -/
def Obligations.MemoryTargetFieldOfCommandByte : Prop :=
  encMemT .volatileDacRegister = 0#3 ∧ encMemT .volatileCommand = 2#3 ∧ encMemT .allMemory = 3#3 ∧
    encMemT .volatileConfigurationBits = 4#3 ∧
    (∀ m, encMemT m ≠ 1#3 ∧ encMemT m ≠ 5#3 ∧ encMemT m ≠ 6#3 ∧ encMemT m ≠ 7#3) ∧
    ∀ x : Registers, (commandByte x).extractLsb' 5 3 = encMemT x.memt

/-- R85: the whole byte as a concatenation and as a number, `CMD` of the registers held, and the worked example. -/
def Obligations.CommandByteIsTheFourFields : Prop :=
  (∀ m r p g, encodeCommand m r p g = encMemT m ++ encRef r ++ encPd p ++ encGain g) ∧
    (∀ m r p g, (encodeCommand m r p g).toNat =
      32 * (encMemT m).toNat + 8 * (encRef r).toNat + 2 * (encPd p).toNat + (encGain g).toNat) ∧
    (∀ x : Registers, commandByte x = encodeCommand x.memt x.ref x.pd x.gain) ∧
    encodeCommand .allMemory .vrefBuffered .normalOperation .x2 = 0x79#8

/-- R86: `Encode` is injective, and a byte is produced exactly when its two upper fields are codes of values; there are 96
such bytes. -/
def Obligations.EncodeIsInjectiveWithNinetySixBytes : Prop :=
  (∀ m r p g m' r' p' g', encodeCommand m r p g = encodeCommand m' r' p' g' → m = m' ∧ r = r' ∧ p = p' ∧ g = g') ∧
    (∀ b : Byte, (∃ m r p g, encodeCommand m r p g = b) ↔
      (b.extractLsb' 5 3 = 0#3 ∨ b.extractLsb' 5 3 = 2#3 ∨ b.extractLsb' 5 3 = 3#3 ∨ b.extractLsb' 5 3 = 4#3) ∧
        (b.extractLsb' 3 2 = 0#2 ∨ b.extractLsb' 3 2 = 2#2 ∨ b.extractLsb' 3 2 = 3#2)) ∧
    ((List.range 256).filter fun k => (decodeCommand (BitVec.ofNat 8 k)).isSome).length = 96

/-- R87: the other 160 bytes have no meaning, and none of them is the first byte of a frame. -/
def Obligations.MeaninglessBytesNeverLeadAFrame : Prop :=
  (∀ b : Byte, decodeCommand b = none ↔
      b.extractLsb' 5 3 = 1#3 ∨ b.extractLsb' 5 3 = 5#3 ∨ b.extractLsb' 5 3 = 6#3 ∨ b.extractLsb' 5 3 = 7#3 ∨
        b.extractLsb' 3 2 = 1#2) ∧
    ((List.range 256).filter fun k => (decodeCommand (BitVec.ofNat 8 k)).isNone).length = 160 ∧
    ∀ v sel (x : Registers) b bs, frame v sel x = b :: bs → decodeCommand b ≠ none

/-- R88: `Decode` is the partial inverse of `Encode`. -/
def Obligations.DecodeCommandInvertsEncode : Prop :=
  (∀ m r p g, decodeCommand (encodeCommand m r p g) = some (m, r, p, g)) ∧
    (∀ b m r p g, decodeCommand b = some (m, r, p, g) → encodeCommand m r p g = b) ∧
    ∀ b, decodeCommand b = none ↔
      ¬((∃ m, encMemT m = b.extractLsb' 5 3) ∧ (∃ r, encRef r = b.extractLsb' 3 2) ∧
        (∃ p, encPd p = b.extractLsb' 1 2) ∧ ∃ g, encGain g = b.extractLsb' 0 1)

/-! ## The level -/

/-- R35, R36: the two bytes of the wire level, and the low bits that a narrower variant forces to zero. -/
def Obligations.LevelBytesAreSlicesOfTheWireLevel : Prop :=
  (∀ v l, (lvlHi (wireLevel v l)).toNat = (wireLevel v l).toNat / 256) ∧
    (∀ v l, (lvlLo (wireLevel v l)).toNat = (wireLevel v l).toNat % 256) ∧
    (∀ l, (lvlLo (wireLevel .v10 l)).extractLsb' 0 2 = 0#2) ∧
    ∀ l, (lvlLo (wireLevel .v8 l)).extractLsb' 0 4 = 0#4

/-- R59, R60: the mask takes the level down to the step at or below it, never to the nearest. -/
def Obligations.MaskRoundsDownToTheStep : Prop :=
  (∀ v l, (wireLevel v l).toNat = l.toNat - l.toNat % levelStep v) ∧
    wireLevel .v10 1023#16 = 1020#16 ∧ wireLevel .v8 4095#16 = 4080#16

/-- R66: the laws of the wire level. -/
def Obligations.WireLevelLaws : Prop :=
  ∀ v l,
    (wireLevel v l).toNat ≤ l.toNat ∧
      wireLevel .v12 l = l ∧
      l.toNat - (wireLevel v l).toNat < levelStep v ∧
      lmask v &&& lmask v = lmask v ∧
      wireLevel v (wireLevel v l) = wireLevel v l ∧
      256 * (lvlHi (wireLevel v l)).toNat + (lvlLo (wireLevel v l)).toNat = (wireLevel v l).toNat

/-- R61: the level bytes by variant and byte selection; with `V8` and `LOW` only bits 7 to 4 of the level reach the wire. -/
def Obligations.LevelBytesOfEachVariant : Prop :=
  (∀ sel l, levelBytes .v12 sel l = [lvlHi (wireLevel .v12 l), lvlLo (wireLevel .v12 l)]) ∧
    (∀ sel l, levelBytes .v10 sel l = [lvlHi (wireLevel .v10 l), lvlLo (wireLevel .v10 l)]) ∧
    (∀ l, levelBytes .v8 .low l = [lvlLo (wireLevel .v8 l)]) ∧
    (∀ l, levelBytes .v8 .mid l = [(wireLevel .v8 l).extractLsb' 4 8]) ∧
    (∀ l, levelBytes .v8 .low l = [l.extractLsb' 4 4 ++ 0#4]) ∧
    ∀ l l', l.extractLsb' 4 4 = l'.extractLsb' 4 4 → levelBytes .v8 .low l = levelBytes .v8 .low l'

/-- R64: the upper byte is never masked, and is at most `0x0F` within the semantic range. -/
def Obligations.UpperLevelByteIsNotMasked : Prop :=
  (∀ v l, lvlHi (wireLevel v l) = l.extractLsb' 8 8) ∧
    (∀ v l, levelInRange l = true → (lvlHi (wireLevel v l)).toNat ≤ 0x0F) ∧
    ∀ sel, levelBytes .v12 sel 4095#16 = [0x0F#8, 0xFF#8]

/-- R62, R80: a frame is the command byte and then the level bytes, 3 bytes for `V12` and `V10`, 2 for `V8`. -/
def Obligations.FrameIsCommandThenLevel : Prop :=
  (∀ v sel x, frame v sel x = [commandByte x] ++ levelBytes v sel x.level) ∧
    (∀ sel x, (frame .v12 sel x).length = 3 ∧ (frame .v10 sel x).length = 3 ∧ (frame .v8 sel x).length = 2) ∧
    ∀ v sel x, (frame v sel x).length = frameLength v

/-! ## Request and response words -/

/-- R102: every operation is read back from its word. -/
def Obligations.DecodeOfEncode : Prop :=
  ∀ i : Instr, decode (encode i) = .ok i

/-- R102: a word that decodes is the word of the operation it decodes to, so no two words name one operation. -/
def Obligations.EncodeOfDecode : Prop :=
  ∀ (w : RequestWord) (i : Instr), decode w = .ok i → encode i = w

/-- The formats of R97 and the rows of the opcode table agree: a word decodes exactly when it matches a row. -/
def Obligations.DecodesExactlyTheWordsOfTheTable : Prop :=
  ∀ w : RequestWord, (∃ i, decode w = .ok i) ↔ legalWord w = true

/-- R99: a word is illegal exactly when its opcode names no operation, a bit marked mbz is 1, or a `ref` field holds
ordinal 3. -/
def Obligations.IllegalWordsAreThoseOfTheRule : Prop :=
  ∀ w : RequestWord, (∃ e, decode w = .error e) ↔
    (w.extractLsb' 32 4 = 0#4 ∨ 8 ≤ (w.extractLsb' 32 4).toNat) ∨
    (w.extractLsb' 32 4 = 1#4 ∧ (w.extractLsb' 31 1 = 1#1 ∨ w.extractLsb' 16 1 = 1#1)) ∨
    (w.extractLsb' 32 4 = 2#4 ∧ w.extractLsb' 0 32 ≠ 0#32) ∨
    (w.extractLsb' 32 4 = 3#4 ∧ w.extractLsb' 1 31 ≠ 0#31) ∨
    ((w.extractLsb' 32 4 = 4#4 ∨ w.extractLsb' 32 4 = 5#4 ∨ w.extractLsb' 32 4 = 7#4) ∧
      w.extractLsb' 2 30 ≠ 0#30) ∨
    (w.extractLsb' 32 4 = 6#4 ∧ w.extractLsb' 16 16 ≠ 0#16) ∨
    (w.extractLsb' 32 4 = 1#4 ∧ w.extractLsb' 20 2 = 3#2) ∨
    (w.extractLsb' 32 4 = 4#4 ∧ w.extractLsb' 0 2 = 3#2)

/-- The worked examples of R102. -/
def Obligations.SampleWordsDecode : Prop :=
  decode 0x160000800#36 =
      .ok (.construct 0x60#7 .vddUnbuffered .x1 .normalOperation .volatileDacRegister 2048#16) ∧
    decode 0x200000000#36 = .ok .initializeOp ∧
    decode 0x400000002#36 = .ok (.setVoltageReference .vrefBuffered) ∧
    decode 0x700000002#36 = .ok (.downloadParameters .allMemory) ∧
    decode 0x400000003#36 = .error .referenceOrdinal3 ∧
    decode 0x300000002#36 = .error .mbzBitSet

/-- R100: the bits of the response word. -/
def Obligations.ResponseWordLayout : Prop :=
  (∀ b : Byte, (Response.ok b).word.extractLsb' 11 1 = 0#1 ∧ (Response.ok b).word.extractLsb' 10 1 = 1#1 ∧
      (Response.ok b).word.extractLsb' 8 2 = 0#2 ∧ (Response.ok b).word.extractLsb' 0 8 = b) ∧
    Response.busTransactionFailed.word = 0x000#12 ∧
    (Response.refused .illegalRequest).word = 0x900#12 ∧
    (Response.refused .notConstructed).word = 0xA00#12 ∧
    (responseOfStatus .noError).word = 0x400#12 ∧ (responseOfStatus .error).word = 0x000#12

/-- Eight sample lines of the textual form (R101), fixed lines and not every name: one for each operation, among them
a line with the short names `NORMAL` and `100k` and the alias `WRITE_VOLATILE_DAC_REGISTER`, decimal and `0x`
numbers, and one line that names no operation. That the blanks after the commas of the first line are skipped is the
model's choice (log 20). -/
def Obligations.TextualFormOfOperations : Prop :=
  parseOperation "construct(0x60, VDD_UNBUFFERED, X1, NORMAL, WRITE_VOLATILE_DAC_REGISTER, 2048)" =
      some (.construct 0x60#7 .vddUnbuffered .x1 .normalOperation .volatileDacRegister 2048#16) ∧
    parseOperation "initialize()" = some .initializeOp ∧
    parseOperation "setGain(X2)" = some (.setGain .x2) ∧
    parseOperation "setVoltageReference(VREF_BUFFERED)" = some (.setVoltageReference .vrefBuffered) ∧
    parseOperation "setPowerMode(100k)" = some (.setPowerMode .powerDown100k) ∧
    parseOperation "setOutputLevelVolatileFast(0x0ABC)" = some (.setOutputLevelVolatileFast 0xABC#16) ∧
    parseOperation "downloadParameters(ALL_MEMORY)" = some (.downloadParameters .allMemory) ∧
    parseOperation "writeCommand(ALL_MEMORY)" = none

/-! ## What each operation does -/

/-- R120, R122: `construct` completes in every state, loads all six registers with its arguments, and changes nothing
else but the ports. How `requests` and `index` move is the model's choice (log 9). -/
def Obligations.ConstructLoadsAllSixRegisters : Prop :=
  ∀ (s : State) a r g p m l,
    exec (.construct a r g p m l) s =
        .next { s with
          regs := some { addr := a, ref := r, gain := g, pd := p, memt := m, level := l }
          responses := s.responses ++ [0x400#12]
          requests := s.requests.tail
          index := s.index + 1 } ∧
      commandByte { addr := a, ref := r, gain := g, pd := p, memt := m, level := l } = encodeCommand m r p g

/-- R140: `setGain` completes whenever the registers hold values; only `GAIN` changes, and in the command byte only
bit 0. How `requests` and `index` move is the model's choice (log 9). -/
def Obligations.SetGainWritesGainOnly : Prop :=
  ∀ (s : State) (x : Registers) g, s.regs = some x →
    exec (.setGain g) s =
        .next { s with
          regs := some { x with gain := g }
          responses := s.responses ++ [0x400#12]
          requests := s.requests.tail
          index := s.index + 1 } ∧
      (commandByte { x with gain := g }).extractLsb' 0 1 = encGain g ∧
      (commandByte { x with gain := g }).extractLsb' 1 7 = (commandByte x).extractLsb' 1 7

/-- R141: `setVoltageReference` completes whenever the registers hold values; only `REF` changes, and in the command
byte only bits 4 and 3. How `requests` and `index` move is the model's choice (log 9). -/
def Obligations.SetVoltageReferenceWritesRefOnly : Prop :=
  ∀ (s : State) (x : Registers) r, s.regs = some x →
    exec (.setVoltageReference r) s =
        .next { s with
          regs := some { x with ref := r }
          responses := s.responses ++ [0x400#12]
          requests := s.requests.tail
          index := s.index + 1 } ∧
      (commandByte { x with ref := r }).extractLsb' 3 2 = encRef r ∧
      (commandByte { x with ref := r }).extractLsb' 5 3 = (commandByte x).extractLsb' 5 3 ∧
      (commandByte { x with ref := r }).extractLsb' 0 3 = (commandByte x).extractLsb' 0 3

/-- R142: `setPowerMode` completes whenever the registers hold values; only `PD` changes, and in the command byte
only bits 2 and 1. How `requests` and `index` move is the model's choice (log 9). -/
def Obligations.SetPowerModeWritesPdOnly : Prop :=
  ∀ (s : State) (x : Registers) p, s.regs = some x →
    exec (.setPowerMode p) s =
        .next { s with
          regs := some { x with pd := p }
          responses := s.responses ++ [0x400#12]
          requests := s.requests.tail
          index := s.index + 1 } ∧
      (commandByte { x with pd := p }).extractLsb' 1 2 = encPd p ∧
      (commandByte { x with pd := p }).extractLsb' 3 5 = (commandByte x).extractLsb' 3 5 ∧
      (commandByte { x with pd := p }).extractLsb' 0 1 = (commandByte x).extractLsb' 0 1

/-- R160: `setOutputLevelVolatileFast` completes whenever the registers hold values; it stages the level unmasked,
sends nothing, leaves the command byte as it was, and returns the byte of the wire level. How `requests` and `index`
move is the model's choice (log 9). -/
def Obligations.FastPathStagesTheLevel : Prop :=
  ∀ (s : State) (x : Registers) l, s.regs = some x →
    exec (.setOutputLevelVolatileFast l) s =
        .next { s with
          regs := some { x with level := l }
          responses := s.responses ++ [0x4#4 ++ fastPathByte s.variant s.lvl8Sel l]
          requests := s.requests.tail
          index := s.index + 1 } ∧
      (s.lvl8Sel = .low → fastPathByte s.variant s.lvl8Sel l = (l &&& lmask s.variant).extractLsb' 0 8) ∧
      (s.variant ≠ .v8 → fastPathByte s.variant s.lvl8Sel l = (l &&& lmask s.variant).extractLsb' 0 8) ∧
      (s.variant = .v8 → levelBytes s.variant s.lvl8Sel l = [fastPathByte s.variant s.lvl8Sel l]) ∧
      commandByte { x with level := l } = commandByte x

/-- R121, R171: `initialize` completes whenever the registers hold values and the transport completes its calls; it
sends the frame of the registers held, changes no register, and answers by the status alone. How `requests` and
`index` move is the model's choice (log 9). -/
def Obligations.InitializeSendsTheFrame : Prop :=
  ∀ (s : State) (x : Registers), s.regs = some x → s.canComplete (frameLength s.variant + 2) = true →
    exec .initializeOp s =
      .next { s with
        trace := s.trace ++ ([.beginTransaction x.addr] ++ (frame s.variant s.lvl8Sel x).map .writeByte ++
          [.endTransaction s.status])
        completes := s.completes.map fun k => k - (frameLength s.variant + 2)
        script := s.script.tail
        drawn := s.drawn + 1
        responses := s.responses ++ [if s.status = .noError then 0x400#12 else 0x000#12]
        requests := s.requests.tail
        index := s.index + 1 }

/-- R170, R171: `downloadParameters` completes under the same conditions; it writes `MEMT` first and sends the frame
with the new target. How `requests` and `index` move is the model's choice (log 9). -/
def Obligations.DownloadWritesTargetThenSendsTheFrame : Prop :=
  ∀ (s : State) (x : Registers) mt, s.regs = some x → s.canComplete (frameLength s.variant + 2) = true →
    exec (.downloadParameters mt) s =
      .next { s with
        regs := some { x with memt := mt }
        trace := s.trace ++ ([.beginTransaction x.addr] ++
          (frame s.variant s.lvl8Sel { x with memt := mt }).map .writeByte ++ [.endTransaction s.status])
        completes := s.completes.map fun k => k - (frameLength s.variant + 2)
        script := s.script.tail
        drawn := s.drawn + 1
        responses := s.responses ++ [if s.status = .noError then 0x400#12 else 0x000#12]
        requests := s.requests.tail
        index := s.index + 1 }

/-- R172: the events one full write appends, by variant (`LVL8_SEL = LOW` for `V8`). -/
def Obligations.EventsOfAFullWrite : Prop :=
  ∀ (s t : State) (x : Registers) mt, s.regs = some x → s.completes = none → s.lvl8Sel = .low →
    exec (.downloadParameters mt) s = .next t →
    t.trace = s.trace ++
      match s.variant with
      | .v12 => [.beginTransaction x.addr, .writeByte (encodeCommand mt x.ref x.pd x.gain),
          .writeByte (lvlHi (wireLevel .v12 x.level)), .writeByte (lvlLo (wireLevel .v12 x.level)),
          .endTransaction s.status]
      | .v10 => [.beginTransaction x.addr, .writeByte (encodeCommand mt x.ref x.pd x.gain),
          .writeByte (lvlHi (wireLevel .v10 x.level)), .writeByte (lvlLo (wireLevel .v10 x.level)),
          .endTransaction s.status]
      | .v8 => [.beginTransaction x.addr, .writeByte (encodeCommand mt x.ref x.pd x.gain),
          .writeByte (lvlLo (wireLevel .v8 x.level)), .endTransaction s.status]

/-- R202: a failed `downloadParameters` answers `ok = 0`, has sent the whole frame, and leaves `MEMT` at the target
asked for. How `requests` and `index` move is the model's choice (log 9). -/
def Obligations.FailedDownloadKeepsTheNewTarget : Prop :=
  ∀ (s : State) (x : Registers) mt q, s.regs = some x → s.completes = none → s.script = .error :: q →
    exec (.downloadParameters mt) s =
      .next { s with
        regs := some { x with memt := mt }
        trace := s.trace ++ ([.beginTransaction x.addr] ++
          (frame s.variant s.lvl8Sel { x with memt := mt }).map .writeByte ++ [.endTransaction .error])
        script := q
        drawn := s.drawn + 1
        responses := s.responses ++ [0x000#12]
        requests := s.requests.tail
        index := s.index + 1 }

/-- R53: the transport may give either status to the transaction of `initialize`, whatever was sent, and the
operation answers `ok` exactly on `NO_ERROR`. The list of settled statuses is the model's form of the free status
(log 4). -/
def Obligations.EitherStatusIsAdmitted : Prop :=
  ∀ (s : State) (x : Registers) (st : Status), s.regs = some x → s.completes = none →
    ∃ t, exec .initializeOp { s with script := st :: s.script } = .next t ∧ t.regs = s.regs ∧
      t.trace.getLast? = some (.endTransaction st) ∧
      t.responses.getLast? = some (if st = .noError then 0x400#12 else 0x000#12)

/-! ## Refusals and the ports -/

/-- R209: in `IDLE`, a legal request other than `construct` is refused `NotConstructed` while the registers hold no
value; nothing but the ports changes. How `requests` and `index` move is the model's choice (log 9). -/
def Obligations.NotConstructedIsRefused : Prop :=
  ∀ (s : State) w ws i, s.seq = .idle → s.regs = none → s.requests = w :: ws → decode w = .ok i →
    (∀ a r g p m l, i ≠ .construct a r g p m l) →
    step s = .next { s with
      responses := s.responses ++ [0xA00#12]
      requests := ws
      index := s.index + 1 }

/-- R206, R210: in `IDLE`, an illegal word is refused `IllegalRequest` whether or not the registers hold values;
nothing but the ports changes. How `requests` and `index` move is the model's choice (log 9). -/
def Obligations.IllegalRequestIsRefused : Prop :=
  ∀ (s : State) w ws, s.seq = .idle → s.requests = w :: ws → legalWord w = false →
    step s = .next { s with
      responses := s.responses ++ [0x900#12]
      requests := ws
      index := s.index + 1 }

/-- R9, R102: in `IDLE`, a step carries out the operation that the word at the request port decodes to. -/
def Obligations.StepRunsTheDecodedOperation : Prop :=
  ∀ (s : State) w ws i, s.seq = .idle → s.requests = w :: ws → decode w = .ok i → step s = exec i s

/-- A word put at the port is the next operation carried out. How a word comes to the port is the model's choice (log
8). -/
def Obligations.FetchedWordIsRun : Prop :=
  ∀ (s : State) (i : Instr),
    step (s.withFetchWord 40 (encode i).toNat) = exec i (s.withFetchWord 40 (encode i).toNat)

/-- The model's choice (log 8): without a request the machine stays as it is. -/
def Obligations.NoRequestNoChange : Prop :=
  ∀ s : State, s.seq = .idle → s.requests = [] → step s = .next s

/-- R95: outside `IDLE` no request is taken: a step does the same whatever words the host has waiting, and the word
at the port leaves it only when the response is given. How `requests` and `index` move is the model's choice (log 9). -/
def Obligations.BusySequencerTakesNoRequest : Prop :=
  ∀ (s t : State) (q : List RequestWord), s.seq ≠ .idle → step s = .next t →
    t.requests = (if t.seq = .idle then s.requests.tail else s.requests) ∧
      step { s with requests := q } = .next { t with requests := if t.seq = .idle then q.tail else q }

/-- R95, R100: a completed operation gives exactly one response and takes exactly one request from the port; one that
the transport leaves stuck gives none and stays in its phase. How `requests` and `index` move is the model's choice
(log 9). -/
def Obligations.OneResponsePerOperation : Prop :=
  ∀ (i : Instr) (s t : State), exec i s = .next t →
    (t.responses.length = s.responses.length + 1 ∧ t.index = s.index + 1 ∧ t.requests = s.requests.tail ∧
        t.seq = s.seq) ∨
      (t.responses = s.responses ∧ t.index = s.index ∧ t.requests = s.requests ∧ t.seq ≠ .idle)

/-! ## A transport that does not complete its calls -/

/-- R175: when the transport completes only `k` of the calls of a transaction, `initialize` and `downloadParameters`
give no response; the calls completed are in the trace and the sequencer waits in the phase it has reached. What such
a step leaves behind is the model's reading (logs 6 and 7). -/
def Obligations.UncompletedCallLeavesNoResponse : Prop :=
  ∀ (s : State) (x : Registers) k, s.regs = some x → s.completes = some k → k < frameLength s.variant + 2 →
    exec .initializeOp s =
        .next { s with
          trace := s.trace ++
            ([Event.beginTransaction x.addr] ++ (frame s.variant s.lvl8Sel x).map Event.writeByte).take k
          completes := some 0
          seq := if k ≤ frameLength s.variant then .transmit k else .acknowledge } ∧
      ∀ mt, exec (.downloadParameters mt) s =
        .next { s with
          regs := some { x with memt := mt }
          trace := s.trace ++ ([Event.beginTransaction x.addr] ++
            (frame s.variant s.lvl8Sel { x with memt := mt }).map Event.writeByte).take k
          completes := some 0
          seq := if k ≤ frameLength s.variant then .transmit k else .acknowledge }

/-- R175: there is no step out of a phase that waits for the transport, however many steps are made. That a stuck
step answers the same state is the model's reading (log 6). -/
def Obligations.StuckPhaseIsNeverLeft : Prop :=
  ∀ (s : State) (n : Nat), seqLegal s = true → s.completes = some 0 →
    ((∃ i, s.seq = .transmit i) ∨ s.seq = .acknowledge) →
    iterate step n s = .next s ∧ runSeq n s = .next s

/-! ## The two readings of an operation -/

/-- Started in `IDLE`, the stepwise reading of a bus-touching operation ends after `n + 4` steps where the one-step
reading ends, and every other request is one step in both. R182 states this where both readings end in `IDLE`. That
they also agree when the transport leaves a call uncompleted, in the phase they wait in and in the trace, is the
model's reading (logs 6 and 7), and so is that a step without a request changes nothing (log 8). -/
def Obligations.StepwiseReadingAgrees : Prop :=
  (∀ (s : State) w ws i op x, s.seq = .idle → s.requests = w :: ws → decode w = .ok i →
      busOperation i = some op → s.regs = some x → runSeq (frameLength s.variant + 4) s = step s) ∧
    ∀ s : State, s.seq = .idle →
      (∀ i, requestAtPort s = some (.ok i) → busOperation i = none ∨ s.regs = none) → seqStep s = step s

/-- R178: the phases of a bus-touching operation, step by step, when the transport completes its calls; no response is given
before the last step. -/
def Obligations.PhasesInOrder : Prop :=
  ∀ (s : State) w ws i op x, s.seq = .idle → s.requests = w :: ws → decode w = .ok i →
    busOperation i = some op → s.regs = some x → s.canComplete (frameLength s.variant + 2) = true →
    (∃ t, runSeq 1 s = .next t ∧ t.seq = .configure op ∧ t.responses = s.responses ∧ t.trace = s.trace) ∧
      (∀ k, k ≤ frameLength s.variant →
        ∃ t, runSeq (k + 2) s = .next t ∧ t.seq = .transmit k ∧ t.responses = s.responses ∧
          t.trace.length = s.trace.length + k) ∧
      (∃ t, runSeq (frameLength s.variant + 3) s = .next t ∧ t.seq = .acknowledge ∧ t.responses = s.responses ∧
        t.trace.length = s.trace.length + frameLength s.variant + 1) ∧
      ∃ t, runSeq (frameLength s.variant + 4) s = .next t ∧ t.seq = .idle ∧
        t.responses.length = s.responses.length + 1 ∧ t.trace.length = s.trace.length + frameLength s.variant + 2

/-! ## The whole machine -/

/-- R39, R231: power-on. -/
def Obligations.PowerOnState : Prop :=
  State.reset.regs = none ∧ State.reset.phase = .idle ∧ State.reset.idx = 0 ∧ State.reset.trace = []

/-- The invariant holds at power-on. The empty history at reset is partly the model's choice (logs 8 and 9). -/
def Obligations.InvariantAtReset : Prop := RunInvariant State.reset

/-- R172: every step keeps the trace a concatenation of whole transactions of the variant, the last one open exactly
as far as the sequencer says, and keeps one response for each operation counted. The count of responses is kept as
log 9 says. -/
def Obligations.EveryStepKeepsTheInvariant : Prop :=
  ∀ s t : State, RunInvariant s → step s = .next t → RunInvariant t

/-- R172, R178: so does every step of the stepwise reading. -/
def Obligations.EverySequencerStepKeepsTheInvariant : Prop :=
  ∀ s t : State, RunInvariant s → seqStep s = .next t → RunInvariant t

/-- R207: from a state with the invariant neither reading ever stops. The only faults are the model's own (log 11). -/
def Obligations.NoFaultFromTheInvariant : Prop :=
  ∀ s : State, RunInvariant s → (∃ t, step s = .next t) ∧ ∃ t, seqStep s = .next t

/-- R207: no operation stops the machine, whatever the state. -/
def Obligations.EveryOperationHasANextState : Prop :=
  ∀ (i : Instr) (s : State), ∃ t, exec i s = .next t

/-- R27: which operation writes which register, and which of them sends anything. -/
def Obligations.RegisterWriteTable : Prop :=
  ∀ (i : Instr) (s t : State) (x : Registers), s.regs = some x → exec i s = .next t →
    t.variant = s.variant ∧ t.lvl8Sel = s.lvl8Sel ∧
      (busOperation i = none → t.trace = s.trace ∧ t.drawn = s.drawn ∧ t.completes = s.completes ∧
        t.script = s.script) ∧
      t.regs = match i with
        | .construct a r g p m l =>
          some { addr := a, ref := r, gain := g, pd := p, memt := m, level := l }
        | .initializeOp => some x
        | .setGain g => some { x with gain := g }
        | .setVoltageReference r => some { x with ref := r }
        | .setPowerMode p => some { x with pd := p }
        | .setOutputLevelVolatileFast l => some { x with level := l }
        | .downloadParameters mt => some { x with memt := mt }

/-- R21: a step that changes `ADDR` is the step of a `construct` with the new address. -/
def Obligations.OnlyConstructChangesTheAddress : Prop :=
  ∀ (s t : State) (x y : Registers), step s = .next t → s.regs = some x → t.regs = some y → x.addr ≠ y.addr →
    s.seq = .idle ∧ ∃ w ws r g p m l, s.requests = w :: ws ∧ decode w = .ok (.construct y.addr r g p m l)

/-- R30: once the registers hold values every step leaves them holding values, and only a `construct` gives them values. -/
def Obligations.OnlyConstructStartsALifetime : Prop :=
  (∀ s t : State, step s = .next t → s.regs.isSome = true → t.regs.isSome = true) ∧
    ∀ s t : State, step s = .next t → s.regs = none → t.regs.isSome = true →
      ∃ w ws a r g p m l, s.requests = w :: ws ∧ decode w = .ok (.construct a r g p m l) ∧
        t.regs = some { addr := a, ref := r, gain := g, pd := p, memt := m, level := l }

/-- R11, R65: a step only appends to the trace and to the responses, and leaves the parameters of the instance alone. -/
def Obligations.HistoryOnlyGrows : Prop :=
  ∀ s t : State, step s = .next t →
    s.trace <+: t.trace ∧ s.responses <+: t.responses ∧ t.variant = s.variant ∧ t.lvl8Sel = s.lvl8Sel

/-- R37, R38, R204: the DCE keeps no record: what an operation does is the same after any trace, any responses and
any count of operations. That the model stores a history at all is its choice (log 9). -/
def Obligations.HistoryIsNotRead : Prop :=
  ∀ (i : Instr) (s t : State) (tr : List Event) (rs : List ResponseWord) (n : Nat), exec i s = .next t →
    ∃ es r d, t.trace = s.trace ++ es ∧ t.responses = s.responses ++ r ∧ t.index = s.index + d ∧
      exec i { s with trace := tr, responses := rs, index := n } =
        .next { t with trace := tr ++ es, responses := rs ++ r, index := n + d }

/-- R53, R201, R203: the status of a transaction reaches nothing but its own `End` event and the response. The fields
changed are the model's form of the free status (log 4). -/
def Obligations.StatusReachesOnlyTheResponse : Prop :=
  ∀ (i : Instr) (s t : State) (q : List Status) (d : Nat), exec i s = .next t →
    ∃ t', exec i { s with script := q, drawn := d } = .next t' ∧
      t'.regs = t.regs ∧ t'.seq = t.seq ∧ t'.variant = t.variant ∧ t'.lvl8Sel = t.lvl8Sel ∧
      t'.requests = t.requests ∧ t'.index = t.index ∧ t'.completes = t.completes ∧
      t'.trace.length = t.trace.length ∧ t'.trace.dropLast = t.trace.dropLast ∧
      t'.responses.length = t.responses.length ∧ t'.responses.dropLast = t.responses.dropLast

/-! ## Sequences of operations -/

/-- R143: the laws of the three setters. -/
def Obligations.SetterLaws : Prop :=
  (∀ (s : State) g r, runOps [.setGain g, .setVoltageReference r] s = runOps [.setVoltageReference r, .setGain g] s) ∧
    (∀ (s : State) g p, runOps [.setGain g, .setPowerMode p] s = runOps [.setPowerMode p, .setGain g] s) ∧
    (∀ (s : State) r p,
      runOps [.setVoltageReference r, .setPowerMode p] s = runOps [.setPowerMode p, .setVoltageReference r] s) ∧
    (∀ (s t u : State) g g', runOps [.setGain g', .setGain g] s = .next t → exec (.setGain g) s = .next u →
      t.regs = u.regs ∧ t.trace = s.trace) ∧
    (∀ (s t u : State) r r', runOps [.setVoltageReference r', .setVoltageReference r] s = .next t →
      exec (.setVoltageReference r) s = .next u → t.regs = u.regs ∧ t.trace = s.trace) ∧
    ∀ (s t u : State) p p', runOps [.setPowerMode p', .setPowerMode p] s = .next t →
      exec (.setPowerMode p) s = .next u → t.regs = u.regs ∧ t.trace = s.trace

/-- R68, R144: the next full write carries every setting as it then stands. -/
def Obligations.SettersReachTheNextFrame : Prop :=
  ∀ (s : State) (x : Registers) g r p, s.regs = some x → s.completes = none →
    ∃ t, runOps [.setPowerMode p, .setGain g, .setVoltageReference r, .initializeOp] s = .next t ∧
      t.trace = s.trace ++ ([.beginTransaction x.addr, .writeByte (encodeCommand x.memt r p g)] ++
        (levelBytes s.variant s.lvl8Sel x.level).map .writeByte ++ [.endTransaction s.status])

/-- R163: of several staged levels only the last is sent, with the next full write. -/
def Obligations.OnlyTheLastStagedLevelIsSent : Prop :=
  ∀ (s : State) (x : Registers) l l' mt, s.regs = some x → s.completes = none →
    ∃ t, runOps [.setOutputLevelVolatileFast l, .setOutputLevelVolatileFast l', .downloadParameters mt] s = .next t ∧
      t.regs = some { x with level := l', memt := mt } ∧
      t.trace = s.trace ++ ([.beginTransaction x.addr] ++
        (frame s.variant s.lvl8Sel { x with level := l', memt := mt }).map .writeByte ++ [.endTransaction s.status])

/-- R174, R243: after a failed `downloadParameters` an `initialize` sends the same frame again, to the target asked for. -/
def Obligations.RetrySendsTheSameFrame : Prop :=
  ∀ (s : State) (x : Registers) mt q, s.regs = some x → s.completes = none → s.script = .error :: .noError :: q →
    ∃ t, runOps [.downloadParameters mt, .initializeOp] s = .next t ∧
      t.regs = some { x with memt := mt } ∧
      t.responses = s.responses ++ [0x000#12, 0x400#12] ∧
      t.trace = s.trace ++
        ([.beginTransaction x.addr] ++ (frame s.variant s.lvl8Sel { x with memt := mt }).map .writeByte ++
          [.endTransaction .error]) ++
        ([.beginTransaction x.addr] ++ (frame s.variant s.lvl8Sel { x with memt := mt }).map .writeByte ++
          [.endTransaction .noError])

/-- R231; the fault in mid-transaction is the model's (log 13): a hardware reset at an operation boundary leaves the
registers without values and nothing else changed. -/
def Obligations.HardwareResetAtABoundary : Prop :=
  (∀ s : State, s.seq = .idle → hardwareReset s = .next { s with regs := none }) ∧
    ∀ s : State, s.seq ≠ .idle → hardwareReset s = .fault .resetInTransaction
end

