-- ==== Sys2Proof/Laws/Encoding.lean ====
section
/-! SUPPORT. Where each field stands in the word of an operation (30_encoding.md R97), and that an ordinal and its value name
each other (R98). -/

namespace Sys2Proof

/-! Ordinals (R98). -/

@[simp] theorem gainOfOrdinal_ordinalOfGain (g : Gain) : gainOfOrdinal (ordinalOfGain g) = g := by
  cases g <;> rfl
@[simp] theorem referenceOfOrdinal_ordinalOfReference (r : ReferenceMode) :
    referenceOfOrdinal (ordinalOfReference r) = some r := by
  cases r <;> rfl
@[simp] theorem powerOfOrdinal_ordinalOfPower (p : PowerMode) : powerOfOrdinal (ordinalOfPower p) = p := by
  cases p <;> rfl
@[simp] theorem targetOfOrdinal_ordinalOfTarget (m : MemoryTarget) : targetOfOrdinal (ordinalOfTarget m) = m := by
  cases m <;> rfl
theorem ordinalOfReference_ne_three (r : ReferenceMode) : ordinalOfReference r ≠ 3#2 := by
  cases r <;> decide

/-! Format `K` (R97). -/

section
variable (a : BusAddress) (r : ReferenceMode) (g : Gain) (p : PowerMode) (m : MemoryTarget) (l : Level)

theorem construct_op : (encode (.construct a r g p m l)).extractLsb' 32 4 = 0x1#4 := by
  unfold encode
  repeat first
    | rw [BitVec.extractLsb'_append_eq_of_add_le (by omega)]
    | rw [BitVec.extractLsb'_append_eq_of_le (by omega)]
  rfl

theorem construct_mbz31 : (encode (.construct a r g p m l)).extractLsb' 31 1 = 0#1 := by
  unfold encode
  repeat first
    | rw [BitVec.extractLsb'_append_eq_of_add_le (by omega)]
    | rw [BitVec.extractLsb'_append_eq_of_le (by omega)]
  rfl

theorem construct_addr : (encode (.construct a r g p m l)).extractLsb' 24 7 = a := by
  unfold encode
  repeat first
    | rw [BitVec.extractLsb'_append_eq_of_add_le (by omega)]
    | rw [BitVec.extractLsb'_append_eq_of_le (by omega)]
  exact BitVec.extractLsb'_eq_self

theorem construct_memt : (encode (.construct a r g p m l)).extractLsb' 22 2 = ordinalOfTarget m := by
  unfold encode
  repeat first
    | rw [BitVec.extractLsb'_append_eq_of_add_le (by omega)]
    | rw [BitVec.extractLsb'_append_eq_of_le (by omega)]
  exact BitVec.extractLsb'_eq_self

theorem construct_ref : (encode (.construct a r g p m l)).extractLsb' 20 2 = ordinalOfReference r := by
  unfold encode
  repeat first
    | rw [BitVec.extractLsb'_append_eq_of_add_le (by omega)]
    | rw [BitVec.extractLsb'_append_eq_of_le (by omega)]
  exact BitVec.extractLsb'_eq_self

theorem construct_pd : (encode (.construct a r g p m l)).extractLsb' 18 2 = ordinalOfPower p := by
  unfold encode
  repeat first
    | rw [BitVec.extractLsb'_append_eq_of_add_le (by omega)]
    | rw [BitVec.extractLsb'_append_eq_of_le (by omega)]
  exact BitVec.extractLsb'_eq_self

theorem construct_gain : (encode (.construct a r g p m l)).extractLsb' 17 1 = ordinalOfGain g := by
  unfold encode
  repeat first
    | rw [BitVec.extractLsb'_append_eq_of_add_le (by omega)]
    | rw [BitVec.extractLsb'_append_eq_of_le (by omega)]
  exact BitVec.extractLsb'_eq_self

theorem construct_mbz16 : (encode (.construct a r g p m l)).extractLsb' 16 1 = 0#1 := by
  unfold encode
  repeat first
    | rw [BitVec.extractLsb'_append_eq_of_add_le (by omega)]
    | rw [BitVec.extractLsb'_append_eq_of_le (by omega)]
  rfl

theorem construct_level : (encode (.construct a r g p m l)).extractLsb' 0 16 = l := by
  unfold encode
  rw [BitVec.extractLsb'_append_eq_of_add_le (by omega)]
  exact BitVec.extractLsb'_eq_self

/-- The fixed bits of the row `construct` of the opcode table. -/
theorem construct_mask : encode (.construct a r g p m l) &&& 0xF80010000#36 = 0x100000000#36 := by
  have hmask : (0xF80010000#36 : BitVec 36) =
      0xF#4 ++ 1#1 ++ 0#7 ++ 0#2 ++ 0#2 ++ 0#2 ++ 0#1 ++ 1#1 ++ 0#16 := rfl
  unfold encode
  rw [hmask]
  repeat rw [BitVec.and_append]
  repeat rw [BitVec.and_zero]
  rfl

/-! Format `L` (R97). -/

theorem level_op : (encode (.setOutputLevelVolatileFast l)).extractLsb' 32 4 = 0x6#4 := by
  unfold encode
  repeat first
    | rw [BitVec.extractLsb'_append_eq_of_add_le (by omega)]
    | rw [BitVec.extractLsb'_append_eq_of_le (by omega)]
  rfl

theorem level_mbz : (encode (.setOutputLevelVolatileFast l)).extractLsb' 16 16 = 0#16 := by
  unfold encode
  repeat first
    | rw [BitVec.extractLsb'_append_eq_of_add_le (by omega)]
    | rw [BitVec.extractLsb'_append_eq_of_le (by omega)]
  rfl

theorem level_field : (encode (.setOutputLevelVolatileFast l)).extractLsb' 0 16 = l := by
  unfold encode
  rw [BitVec.extractLsb'_append_eq_of_add_le (by omega)]
  exact BitVec.extractLsb'_eq_self

/-- The fixed bits of the row `setOutputLevelVolatileFast` of the opcode table. -/
theorem level_mask : encode (.setOutputLevelVolatileFast l) &&& 0xFFFFF0000#36 = 0x600000000#36 := by
  have hmask : (0xFFFFF0000#36 : BitVec 36) = 0xF#4 ++ 0xFFFF#16 ++ 0#16 := rfl
  unfold encode
  rw [hmask]
  repeat rw [BitVec.and_append]
  repeat rw [BitVec.and_zero]
  rfl

end

end Sys2Proof
end

