-- ==== Sys2Proof/Laws/State.lean ====
section
/-! SUPPORT. One lemma per field of State and per update of it, so that no later proof unfolds a record update; the results
`answerOk`, `raiseBusTransactionFailed` and `refuse` are rewritten to `answer`. -/

namespace Sys2Proof.Machine

/-! `answer` (R29, R95, R100) -/

@[simp] theorem State.answer_regs (r : Response) (s : State) : (s.answer r).regs = s.regs := rfl
@[simp] theorem State.answer_seq (r : Response) (s : State) : (s.answer r).seq = s.seq := rfl
@[simp] theorem State.answer_variant (r : Response) (s : State) : (s.answer r).variant = s.variant := rfl
@[simp] theorem State.answer_lvl8Sel (r : Response) (s : State) : (s.answer r).lvl8Sel = s.lvl8Sel := rfl
@[simp] theorem State.answer_requests (r : Response) (s : State) : (s.answer r).requests = s.requests.tail := rfl
@[simp] theorem State.answer_index (r : Response) (s : State) : (s.answer r).index = s.index + 1 := rfl
@[simp] theorem State.answer_completes (r : Response) (s : State) : (s.answer r).completes = s.completes := rfl
@[simp] theorem State.answer_script (r : Response) (s : State) : (s.answer r).script = s.script := rfl
@[simp] theorem State.answer_drawn (r : Response) (s : State) : (s.answer r).drawn = s.drawn := rfl
@[simp] theorem State.answer_trace (r : Response) (s : State) : (s.answer r).trace = s.trace := rfl
@[simp] theorem State.answer_responses (r : Response) (s : State) : (s.answer r).responses = s.responses ++ [r.word] := rfl

/-! `setRegs` (R11) -/

@[simp] theorem State.setRegs_regs (x : Registers) (s : State) : (s.setRegs x).regs = some x := rfl
@[simp] theorem State.setRegs_seq (x : Registers) (s : State) : (s.setRegs x).seq = s.seq := rfl
@[simp] theorem State.setRegs_variant (x : Registers) (s : State) : (s.setRegs x).variant = s.variant := rfl
@[simp] theorem State.setRegs_lvl8Sel (x : Registers) (s : State) : (s.setRegs x).lvl8Sel = s.lvl8Sel := rfl
@[simp] theorem State.setRegs_requests (x : Registers) (s : State) : (s.setRegs x).requests = s.requests := rfl
@[simp] theorem State.setRegs_index (x : Registers) (s : State) : (s.setRegs x).index = s.index := rfl
@[simp] theorem State.setRegs_completes (x : Registers) (s : State) : (s.setRegs x).completes = s.completes := rfl
@[simp] theorem State.setRegs_script (x : Registers) (s : State) : (s.setRegs x).script = s.script := rfl
@[simp] theorem State.setRegs_drawn (x : Registers) (s : State) : (s.setRegs x).drawn = s.drawn := rfl
@[simp] theorem State.setRegs_trace (x : Registers) (s : State) : (s.setRegs x).trace = s.trace := rfl
@[simp] theorem State.setRegs_responses (x : Registers) (s : State) : (s.setRegs x).responses = s.responses := rfl

/-! `completeCalls` (R175) -/

@[simp] theorem State.completeCalls_regs (n : Nat) (s : State) : (s.completeCalls n).regs = s.regs := rfl
@[simp] theorem State.completeCalls_seq (n : Nat) (s : State) : (s.completeCalls n).seq = s.seq := rfl
@[simp] theorem State.completeCalls_variant (n : Nat) (s : State) : (s.completeCalls n).variant = s.variant := rfl
@[simp] theorem State.completeCalls_lvl8Sel (n : Nat) (s : State) : (s.completeCalls n).lvl8Sel = s.lvl8Sel := rfl
@[simp] theorem State.completeCalls_requests (n : Nat) (s : State) : (s.completeCalls n).requests = s.requests := rfl
@[simp] theorem State.completeCalls_index (n : Nat) (s : State) : (s.completeCalls n).index = s.index := rfl
@[simp] theorem State.completeCalls_completes (n : Nat) (s : State) : (s.completeCalls n).completes = s.completes.map fun k => k - n := rfl
@[simp] theorem State.completeCalls_script (n : Nat) (s : State) : (s.completeCalls n).script = s.script := rfl
@[simp] theorem State.completeCalls_drawn (n : Nat) (s : State) : (s.completeCalls n).drawn = s.drawn := rfl
@[simp] theorem State.completeCalls_trace (n : Nat) (s : State) : (s.completeCalls n).trace = s.trace := rfl
@[simp] theorem State.completeCalls_responses (n : Nat) (s : State) : (s.completeCalls n).responses = s.responses := rfl

/-! `takeStatus` (R53) -/

@[simp] theorem State.takeStatus_regs (s : State) : s.takeStatus.regs = s.regs := rfl
@[simp] theorem State.takeStatus_seq (s : State) : s.takeStatus.seq = s.seq := rfl
@[simp] theorem State.takeStatus_variant (s : State) : s.takeStatus.variant = s.variant := rfl
@[simp] theorem State.takeStatus_lvl8Sel (s : State) : s.takeStatus.lvl8Sel = s.lvl8Sel := rfl
@[simp] theorem State.takeStatus_requests (s : State) : s.takeStatus.requests = s.requests := rfl
@[simp] theorem State.takeStatus_index (s : State) : s.takeStatus.index = s.index := rfl
@[simp] theorem State.takeStatus_completes (s : State) : s.takeStatus.completes = s.completes := rfl
@[simp] theorem State.takeStatus_script (s : State) : s.takeStatus.script = s.script.tail := rfl
@[simp] theorem State.takeStatus_drawn (s : State) : s.takeStatus.drawn = s.drawn + 1 := rfl
@[simp] theorem State.takeStatus_trace (s : State) : s.takeStatus.trace = s.trace := rfl
@[simp] theorem State.takeStatus_responses (s : State) : s.takeStatus.responses = s.responses := rfl

/-! `emit` (R11) -/

@[simp] theorem State.emit_regs (es : List Event) (s : State) : (s.emit es).regs = s.regs := rfl
@[simp] theorem State.emit_seq (es : List Event) (s : State) : (s.emit es).seq = s.seq := rfl
@[simp] theorem State.emit_variant (es : List Event) (s : State) : (s.emit es).variant = s.variant := rfl
@[simp] theorem State.emit_lvl8Sel (es : List Event) (s : State) : (s.emit es).lvl8Sel = s.lvl8Sel := rfl
@[simp] theorem State.emit_requests (es : List Event) (s : State) : (s.emit es).requests = s.requests := rfl
@[simp] theorem State.emit_index (es : List Event) (s : State) : (s.emit es).index = s.index := rfl
@[simp] theorem State.emit_completes (es : List Event) (s : State) : (s.emit es).completes = s.completes := rfl
@[simp] theorem State.emit_script (es : List Event) (s : State) : (s.emit es).script = s.script := rfl
@[simp] theorem State.emit_drawn (es : List Event) (s : State) : (s.emit es).drawn = s.drawn := rfl
@[simp] theorem State.emit_trace (es : List Event) (s : State) : (s.emit es).trace = s.trace ++ es := rfl
@[simp] theorem State.emit_responses (es : List Event) (s : State) : (s.emit es).responses = s.responses := rfl

/-! The three results of R100 as answers. -/

@[simp] theorem State.answerOk_eq (s : State) : s.answerOk = s.answer (.ok 0#8) := rfl
@[simp] theorem State.raiseBusTransactionFailed_eq (s : State) :
    s.raiseBusTransactionFailed = s.answer .busTransactionFailed := rfl
@[simp] theorem State.refuse_eq (reason : Reason) (s : State) : s.refuse reason = s.answer (.refused reason) := rfl

/-! The response words of R100. -/

@[simp] theorem word_ok (b : Byte) : (Response.ok b).word = 0x4#4 ++ b := by
  simp only [Response.word, Response.refusedBit, Response.okBit, Response.reasonBits, Response.rbyteBits]
  rfl
@[simp] theorem word_busTransactionFailed : Response.busTransactionFailed.word = 0x000#12 := rfl
@[simp] theorem word_illegalRequest : (Response.refused .illegalRequest).word = 0x900#12 := rfl
@[simp] theorem word_notConstructed : (Response.refused .notConstructed).word = 0xA00#12 := rfl

end Sys2Proof.Machine
end

