-- ==== Sys2Proof/Laws/Ops.lean ====
section
/-! SUPPORT. What each shared operation can do, said once: later proofs cite these and do not unfold the operations. -/

namespace Sys2Proof.Machine

/-! The register file (R30). -/

theorem withRegisters_none {s : State} {run : Registers → State} (h : s.regs = none) :
    withRegisters s run = .next (s.answer (.refused .notConstructed)) := by
  simp [withRegisters, h]

theorem withRegisters_some {s : State} {run : Registers → State} {x : Registers} (h : s.regs = some x) :
    withRegisters s run = .next (run x) := by
  simp [withRegisters, h]

/-- All that `withRegisters` can answer. -/
theorem withRegisters_cases {s t : State} {run : Registers → State} (h : withRegisters s run = .next t) :
    (s.regs = none ∧ t = s.answer (.refused .notConstructed)) ∨ ∃ x, s.regs = some x ∧ t = run x := by
  cases hr : s.regs with
  | none => exact .inl ⟨rfl, by simpa [withRegisters_none hr] using h.symm⟩
  | some x => exact .inr ⟨x, rfl, by simpa [withRegisters_some hr] using h.symm⟩

/-! The transport (R53, R54, R175). -/

theorem canComplete_none {s : State} (n : Nat) (h : s.completes = none) : s.canComplete n = true := by
  simp [State.canComplete, h]

theorem canComplete_false {s : State} {n : Nat} (h : s.canComplete n = false) :
    ∃ k, s.completes = some k ∧ k < n := by
  unfold State.canComplete at h
  split at h
  · cases h
  · exact ⟨_, by assumption, by simpa using h⟩

theorem transactionCalls_length (a : BusAddress) (bs : List Byte) :
    (transactionCalls a bs).length = bs.length + 1 := by
  simp [transactionCalls]

theorem frame_length (v : Variant) (sel : Lvl8Sel) (x : Registers) : (frame v sel x).length = frameLength v := by
  cases v <;> rfl

/-- `memWrite` when the transport completes every call of the transaction (R54). -/
theorem memWrite_complete {a : BusAddress} {bs : List Byte} {s : State} (h : s.canComplete (bs.length + 2) = true) :
    memWrite a bs s =
      (some s.status,
        ((s.emit (transactionCalls a bs ++ [.endTransaction s.status])).completeCalls (bs.length + 2)).takeStatus) := by
  simp [memWrite, h]

/-- `memWrite` when the transport stops after `k` calls (R175). -/
theorem memWrite_stuck {a : BusAddress} {bs : List Byte} {s : State} {k : Nat} (hk : s.completes = some k)
    (hlt : k < bs.length + 2) :
    memWrite a bs s =
      (none, { (s.emit ((transactionCalls a bs).take k)).completeCalls k with seq := seqAfterCalls bs.length k }) := by
  have hc : s.canComplete (bs.length + 2) = false := by simp [State.canComplete, hk, hlt]
  simp [memWrite, hc, hk]

/-- All that `memWrite` can do. -/
theorem memWrite_cases (a : BusAddress) (bs : List Byte) (s : State) :
    (s.canComplete (bs.length + 2) = true ∧
      memWrite a bs s =
        (some s.status,
          ((s.emit (transactionCalls a bs ++ [.endTransaction s.status])).completeCalls (bs.length + 2)).takeStatus)) ∨
    ∃ k, s.completes = some k ∧ k < bs.length + 2 ∧
      memWrite a bs s =
        (none, { (s.emit ((transactionCalls a bs).take k)).completeCalls k with seq := seqAfterCalls bs.length k }) := by
  by_cases h : s.canComplete (bs.length + 2) = true
  · exact .inl ⟨h, memWrite_complete h⟩
  · obtain ⟨k, hk, hlt⟩ := canComplete_false (by simpa using h)
    exact .inr ⟨k, hk, hlt, memWrite_stuck hk hlt⟩

/-- A write with a status ends in one response, `ok` by the status (R100, R121, R170). -/
theorem finishWrite_some (st : Status) (s : State) :
    finishWrite (some st, s) =
      s.answer (responseOfStatus st) := by
  cases st <;> rfl

/-- Without a status there is no response (R175). -/
theorem finishWrite_none (s : State) : finishWrite (none, s) = s := rfl

/-! The request port (R95, R206). -/

/-- All that `serveRequest` can answer. -/
theorem serveRequest_cases (run : Instr → State → Host.Outcome State Fault Refusal) (s : State) :
    (s.requests = [] ∧ serveRequest run s = .next s) ∨
    (∃ w ws e, s.requests = w :: ws ∧ decode w = .error e ∧
      serveRequest run s = .next (s.answer (.refused .illegalRequest))) ∨
    ∃ w ws i, s.requests = w :: ws ∧ decode w = .ok i ∧ serveRequest run s = run i s := by
  cases hr : s.requests with
  | nil => exact .inl ⟨rfl, by simp [serveRequest, requestAtPort, hr]⟩
  | cons w ws =>
    cases hd : decode w with
    | error e => exact .inr (.inl ⟨w, ws, e, rfl, hd, by simp [serveRequest, requestAtPort, hr, hd]⟩)
    | ok i => exact .inr (.inr ⟨w, ws, i, rfl, hd, by simp [serveRequest, requestAtPort, hr, hd]⟩)

end Sys2Proof.Machine
end

