-- ==== Sys2Proof/Laws/PerInstr.lean ====
section
/-! SUPPORT. Facts about every operation as syntax, one lemma per constructor. -/

namespace Sys2Proof.Laws

/-- The word of an operation matches a row of the opcode table and has no `ref` ordinal 3: it is legal (R99, R102). -/
def EncodeLegal.Statement (i : Instr) : Prop := legalWord (encode i) = true

theorem EncodeLegal.construct (a : BusAddress) (r : ReferenceMode) (g : Gain) (p : PowerMode) (m : MemoryTarget)
    (l : Level) : EncodeLegal.Statement (.construct a r g p m l) := by
  have hop : opcodeField (encode (.construct a r g p m l)) = 0x1#4 := construct_op a r g p m l
  have href := ordinalOfReference_ne_three r
  simp [EncodeLegal.Statement, legalWord, opcodeNamed, mbzClear, refNamed, opcodeTable, hop,
    construct_mask a r g p m l, construct_ref a r g p m l, href]
  exact ⟨by decide, .inl (by decide)⟩

theorem EncodeLegal.initializeOp : EncodeLegal.Statement .initializeOp := by
  show legalWord (encode .initializeOp) = true
  decide

theorem EncodeLegal.setGain (g : Gain) : EncodeLegal.Statement (.setGain g) := by
  show legalWord (encode (.setGain g)) = true
  cases g <;> decide

theorem EncodeLegal.setVoltageReference (r : ReferenceMode) : EncodeLegal.Statement (.setVoltageReference r) := by
  show legalWord (encode (.setVoltageReference r)) = true
  cases r <;> decide

theorem EncodeLegal.setPowerMode (p : PowerMode) : EncodeLegal.Statement (.setPowerMode p) := by
  show legalWord (encode (.setPowerMode p)) = true
  cases p <;> decide

theorem EncodeLegal.setOutputLevelVolatileFast (l : Level) :
    EncodeLegal.Statement (.setOutputLevelVolatileFast l) := by
  have hop : opcodeField (encode (.setOutputLevelVolatileFast l)) = 0x6#4 := level_op l
  simp [EncodeLegal.Statement, legalWord, opcodeNamed, mbzClear, refNamed, opcodeTable, hop, level_mask l]
  exact ⟨by decide, .inl (by decide), .inl (by decide)⟩

theorem EncodeLegal.downloadParameters (m : MemoryTarget) : EncodeLegal.Statement (.downloadParameters m) := by
  show legalWord (encode (.downloadParameters m)) = true
  cases m <;> decide

end Sys2Proof.Laws
end

