-- ==== Sys2Proof/Laws/Sequencer.lean ====
section
/-! SUPPORT. What each transition of the sequencer can do (R178 to R181). -/

namespace Sys2Proof.Machine

/-- All that `CONFIGURE` can do (R179): only `MEMT` and the phase change. -/
theorem seqConfigure_cases (op : BusOp) (s : State) :
    (op = .initializeOp ∧ seqConfigure op s = { s with seq := .transmit 0 }) ∨
    ∃ mt, op = .download mt ∧
      seqConfigure op s = { s with regs := s.regs.map fun x => { x with memt := mt }, seq := .transmit 0 } := by
  cases op with
  | initializeOp => exact .inl ⟨rfl, rfl⟩
  | download mt => exact .inr ⟨mt, rfl, rfl⟩

/-- All that `TRANSMIT` can answer with a next state (R180, R175). -/
theorem seqTransmit_cases {idx : Nat} {s t : State} (h : seqTransmit idx s = .next t) :
    ∃ x call, s.regs = some x ∧
      (transactionCalls x.addr (frame s.variant s.lvl8Sel x))[idx]? = some call ∧
      ((s.canComplete 1 = false ∧ t = s) ∨
        (s.canComplete 1 = true ∧
          t = { (s.emit [call]).completeCalls 1 with
            seq := seqAfterCalls (frame s.variant s.lvl8Sel x).length (idx + 1) })) := by
  unfold seqTransmit at h
  split at h
  · cases h
  · rename_i x hx
    dsimp only at h
    split at h
    · cases h
    · rename_i call hcall
      refine ⟨x, call, hx, hcall, ?_⟩
      split at h
      · rename_i hc
        exact .inr ⟨hc, by simpa using h.symm⟩
      · rename_i hc
        exact .inl ⟨by simpa using hc, by simpa using h.symm⟩

/-- All that `ACKNOWLEDGE` can do (R181, R175). -/
theorem seqAcknowledge_cases (s : State) :
    (s.canComplete 1 = false ∧ seqAcknowledge s = s) ∨
    (s.canComplete 1 = true ∧
      seqAcknowledge s =
        ({ ((s.emit [.endTransaction s.status]).completeCalls 1).takeStatus with seq := .idle } : State).answer
          (responseOfStatus s.status)) := by
  cases hc : s.canComplete 1 with
  | false => exact .inl ⟨rfl, by simp [seqAcknowledge, hc]⟩
  | true => exact .inr ⟨rfl, by simp [seqAcknowledge, hc, finishWrite_some]⟩

end Sys2Proof.Machine
end

