-- ==== Sys2Proof/Tests/Slice0.lean ====
section
/-! SUPPORT. Small checks of the model against values written out from the spec (95_test_vectors.md, 96_vector_tables.md and
the worked examples of the rules), and, for each statement with hypotheses, a state that meets them. -/

namespace Sys2Proof.Tests

open Sys2Proof.Machine

/-! ## Legal words (30_encoding.md R99): one ill-formed word for each check -/

theorem test_opcode_zero_refused : opcodeNamed 0x060000800#36 = false ∧ legalWord 0x060000800#36 = false := by decide
theorem test_opcode_fifteen_refused : opcodeNamed 0xFFFFFFFFF#36 = false := by decide
theorem test_mbz_bit31_refused : mbzClear 0x1E0000800#36 = false ∧ legalWord 0x1E0000800#36 = false := by decide
theorem test_mbz_bit16_refused : mbzClear 0x160010800#36 = false := by decide
theorem test_ref_ordinal3_refused : refNamed 0x160300800#36 = false ∧ legalWord 0x400000003#36 = false := by decide
theorem test_legal_words : legalWord 0x160200800#36 = true ∧ legalWord 0x500000003#36 = true := by decide
theorem test_rows_disjoint :
    opcodeTable.Pairwise fun r r' => opcodeField r.pattern ≠ opcodeField r'.pattern := by decide

/-! ## Decoding (95_test_vectors.md 2.4, 2.8; the words are the spec's), and the encoder on the same words -/

theorem test_decode_construct : decode 0x1615803FF#36 =
    .ok (.construct 0x61#7 .vrefUnbuffered .x1 .powerDown100k .volatileCommand 0x03FF#16) := by rfl
theorem test_decode_construct_top : decode 0x17FEEFFFF#36 =
    .ok (.construct 0x7F#7 .vrefBuffered .x2 .powerDown500k .volatileConfigurationBits 0xFFFF#16) := by rfl
theorem test_decode_initialize : decode 0x200000000#36 = .ok .initializeOp := by rfl
theorem test_decode_setGain : decode 0x300000001#36 = .ok (.setGain .x2) := by rfl
theorem test_decode_setVoltageReference : decode 0x400000001#36 = .ok (.setVoltageReference .vrefUnbuffered) := by rfl
theorem test_decode_setPowerMode : decode 0x500000003#36 = .ok (.setPowerMode .powerDown500k) := by rfl
theorem test_decode_fast : decode 0x60000FFFF#36 = .ok (.setOutputLevelVolatileFast 0xFFFF#16) := by rfl
theorem test_decode_download : decode 0x700000003#36 = .ok (.downloadParameters .volatileConfigurationBits) := by rfl
theorem test_decode_bad_opcode : decode 0x800000000#36 = .error .noSuchOpcode := by rfl
theorem test_decode_bad_mbz : decode 0x280000000#36 = .error .mbzBitSet ∧ decode 0x600010000#36 = .error .mbzBitSet :=
  ⟨rfl, rfl⟩
theorem test_encode_construct :
    encode (.construct 0x62#7 .vddUnbuffered .x2 .powerDown500k .volatileConfigurationBits 0x0ABC#16) =
      0x162CE0ABC#36 := by decide
theorem test_encode_others :
    encode .initializeOp = 0x200000000#36 ∧ encode (.setGain .x2) = 0x300000001#36 ∧
      encode (.setVoltageReference .vrefBuffered) = 0x400000002#36 ∧
      encode (.setPowerMode .powerDown100k) = 0x500000002#36 ∧
      encode (.setOutputLevelVolatileFast 0x0ABC#16) = 0x600000ABC#36 ∧
      encode (.downloadParameters .allMemory) = 0x700000002#36 := by decide
theorem test_table_word : decodeTableWord 40 0x700000002 = some (.downloadParameters .allMemory) := by decide
theorem test_table_word_too_wide : decodeTableWord 40 0x1700000002 = none := by decide

/-! ## The wire (95 sections 1, 2.1 to 2.3) -/

theorem test_source_round_trip : encodeCommand .allMemory .vrefBuffered .normalOperation .x2 = 0b01111001#8 := by decide
theorem test_command_byte_9F :
    encodeCommand .volatileConfigurationBits .vrefBuffered .powerDown500k .x2 = 0x9F#8 := by decide
theorem test_decode_command :
    decodeCommand 0x1B#8 = some (.volatileDacRegister, .vrefBuffered, .powerDown1k, .x2) ∧
      decodeCommand 0x08#8 = none ∧ decodeCommand 0x20#8 = none := by decide
theorem test_level_bytes_0ABC :
    levelBytes .v12 .low 0x0ABC#16 = [0x0A#8, 0xBC#8] ∧ levelBytes .v10 .low 0x0ABE#16 = [0x0A#8, 0xBC#8] ∧
      levelBytes .v8 .low 0x0ABC#16 = [0xB0#8] ∧ levelBytes .v8 .mid 0x0ABC#16 = [0xAB#8] := by decide

/-! ## States -/

/-- The settings named A in 95_test_vectors.md 2.7. -/
def regsA : Registers :=
  { addr := 0x60#7, ref := .vddUnbuffered, gain := .x1, pd := .normalOperation, memt := .volatileDacRegister,
    level := 0x0800#16 }

/-- The settings named C there. -/
def regsC : Registers := { regsA with ref := .vrefBuffered, gain := .x2, level := 0x0FFF#16 }

/-- The settings named G there. -/
def regsG : Registers :=
  { addr := 0x62#7, ref := .vddUnbuffered, gain := .x2, pd := .powerDown500k, memt := .volatileConfigurationBits,
    level := 0x0ABC#16 }

/-- Power-on with a chosen variant, chosen statuses and a list of requests. -/
def start (v : Variant) (script : List Status) (requests : List RequestWord) : State :=
  { State.reset with variant := v, script := script, requests := requests }

/-- The same with the registers holding values. -/
def running (v : Variant) (script : List Status) (requests : List RequestWord) (x : Registers) : State :=
  { start v script requests with regs := some x }

/-- The next state of an outcome. -/
def after (o : Host.Outcome State Fault Refusal) : Option State :=
  match o with
  | .next t => some t
  | .fault _ => none
  | .refused _ => none

/-! ## One step of each operation (95 sections 1, 2.4 to 2.9) -/

theorem test_construct :
    (after (step (start .v12 [] [0x160000800#36]))).map (fun t => (t.regs, t.responses, t.trace)) =
      some (some regsA, [0x400#12], []) := by decide
theorem test_construct_again :
    (after (exec (.construct 0x10#7 .vddUnbuffered .x1 .powerDown1k .volatileCommand 1#16)
      (running .v12 [] [] regsC))).map (fun t => t.regs.map fun x => (x.addr, commandByte x)) =
      some (some (0x10#7, 0x42#8)) := by decide
theorem test_initialize :
    (after (step (running .v12 [.noError] [0x200000000#36] regsA))).map (fun t => (t.trace, t.responses)) =
      some ([.beginTransaction 0x60#7, .writeByte 0x00#8, .writeByte 0x08#8, .writeByte 0x00#8,
        .endTransaction .noError], [0x400#12]) := by decide
theorem test_initialize_v8_mid :
    (after (exec .initializeOp { running .v8 [.noError] [] regsG with lvl8Sel := .mid })).map (fun t => t.trace) =
      some [.beginTransaction 0x62#7, .writeByte 0x87#8, .writeByte 0xAB#8, .endTransaction .noError] := by decide
theorem test_setGain :
    (after (exec (.setGain .x2) (running .v12 [] [] regsA))).map (fun t => (t.regs.map commandByte, t.responses)) =
      some (some 0x01#8, [0x400#12]) := by decide
theorem test_setVoltageReference :
    (after (exec (.setVoltageReference .vrefUnbuffered) (running .v12 [] [] regsA))).map
      (fun t => t.regs.map commandByte) = some (some 0x10#8) := by decide
theorem test_setPowerMode :
    (after (exec (.setPowerMode .powerDown100k) (running .v12 [] [] regsA))).map
      (fun t => t.regs.map commandByte) = some (some 0x04#8) := by decide
theorem test_fast_v10 :
    (after (exec (.setOutputLevelVolatileFast 0x03FF#16) (running .v10 [] [] regsA))).map
      (fun t => (t.regs.map fun x => x.level, t.responses, t.trace)) =
      some (some 0x03FF#16, [0x4FC#12], []) := by decide
theorem test_fast_v8_mid :
    (after (exec (.setOutputLevelVolatileFast 0x0ABC#16) { running .v8 [] [] regsA with lvl8Sel := .mid })).map
      (fun t => t.responses) = some [0x4AB#12] := by decide
theorem test_download_fails :
    (after (step (running .v12 [.error] [0x700000002#36] regsC))).map
      (fun t => (t.trace, t.responses, t.regs.map fun x => x.memt)) =
      some ([.beginTransaction 0x60#7, .writeByte 0x79#8, .writeByte 0x0F#8, .writeByte 0xFF#8, .endTransaction .error],
        [0x000#12], some .allMemory) := by decide
theorem test_download_v8 :
    (after (exec (.downloadParameters .allMemory) (running .v8 [.error] [] regsG))).map (fun t => t.trace) =
      some [.beginTransaction 0x62#7, .writeByte 0x67#8, .writeByte 0xB0#8, .endTransaction .error] := by decide
theorem test_not_constructed :
    (after (step (start .v12 [] [0x700000002#36]))).map (fun t => (t.regs, t.responses)) =
      some (none, [0xA00#12]) := by decide
theorem test_illegal_before_not_constructed :
    (after (step (start .v12 [] [0x400000003#36]))).map (fun t => t.responses) = some [0x900#12] := by decide
theorem test_transmit_step :
    (after (seqStep { running .v12 [] [] { regsC with memt := .allMemory } with seq := .transmit 3 })).map
      (fun t => (t.trace, t.phase, t.idx)) = some ([.writeByte 0xFF#8], .acknowledge, 0) := by decide
theorem test_fetch_word :
    (after (step (State.reset.withFetchWord 40 0x160000800))).map (fun t => t.regs) = some (some regsA) := by decide

/-! ## The textual form (30_encoding.md R101) -/

theorem test_text_alias : parseOperation "setPowerMode(500k)" = some (.setPowerMode .powerDown500k) := by decide
theorem test_text_address_too_wide :
    parseOperation "construct(128, VDD_UNBUFFERED, X1, NORMAL, ALL_MEMORY, 0)" = none := by decide

/-! ## Hypotheses that something meets: one theorem for each statement that has hypotheses -/

theorem witness_EncodeIsInjectiveWithNinetySixBytes :
    encodeCommand .volatileCommand .vrefBuffered .powerDown1k .x2 =
      encodeCommand .volatileCommand .vrefBuffered .powerDown1k .x2 := rfl
theorem witness_MeaninglessBytesNeverLeadAFrame : frame .v8 .low regsG = 0x87#8 :: [0xB0#8] := by decide
theorem witness_DecodeCommandInvertsEncode :
    decodeCommand 0x44#8 = some (.volatileCommand, .vddUnbuffered, .powerDown100k, .x1) := by decide
theorem witness_LevelBytesOfEachVariant :
    (0xFFBF#16).extractLsb' 4 4 = (0x00B0#16).extractLsb' 4 4 ∧ 0xFFBF#16 ≠ 0x00B0#16 := by decide
theorem witness_UpperLevelByteIsNotMasked : levelInRange 4095#16 = true ∧ levelInRange 4096#16 = false := by decide
theorem witness_EncodeOfDecode : decode 0x60000ABCD#36 = .ok (.setOutputLevelVolatileFast 0xABCD#16) := rfl
theorem witness_registers_held : (running .v12 [] [] regsA).regs = some regsA := rfl
theorem witness_SetGainWritesGainOnly : (running .v10 [] [] regsC).regs = some regsC := rfl
theorem witness_SetVoltageReferenceWritesRefOnly : (running .v8 [] [] regsG).regs = some regsG := rfl
theorem witness_SetPowerModeWritesPdOnly : (running .v12 [] [] regsC).regs = some regsC := rfl
theorem witness_FastPathStagesTheLevel :
    (running .v8 [] [] regsA).regs = some regsA ∧ (running .v8 [] [] regsA).lvl8Sel = .low ∧
      (running .v8 [] [] regsA).variant = .v8 ∧ (running .v10 [] [] regsA).variant ≠ .v8 := by decide
theorem witness_InitializeSendsTheFrame :
    (running .v12 [.error] [] regsA).regs = some regsA ∧ (running .v12 [.error] [] regsA).canComplete 5 = true ∧
      ({ running .v8 [] [] regsA with completes := some 4 } : State).canComplete (frameLength .v8 + 2) = true := by
  decide
theorem witness_DownloadWritesTargetThenSendsTheFrame :
    ({ running .v12 [.error] [] regsC with completes := some 5 } : State).regs = some regsC ∧
      ({ running .v12 [.error] [] regsC with completes := some 5 } : State).canComplete (frameLength .v12 + 2) = true :=
  by decide
theorem witness_EventsOfAFullWrite (v : Variant) :
    (running v [.error] [] regsC).regs = some regsC ∧ (running v [.error] [] regsC).completes = none ∧
      (running v [.error] [] regsC).lvl8Sel = .low ∧
      ∃ t, exec (.downloadParameters .allMemory) (running v [.error] [] regsC) = .next t :=
  ⟨rfl, rfl, rfl, _, rfl⟩
theorem witness_FailedDownloadKeepsTheNewTarget :
    (running .v8 [.error, .noError] [] regsG).regs = some regsG ∧
      (running .v8 [.error, .noError] [] regsG).completes = none ∧
      (running .v8 [.error, .noError] [] regsG).script = .error :: [.noError] := by decide
theorem witness_EitherStatusIsAdmitted :
    (running .v10 [] [] regsG).regs = some regsG ∧ (running .v10 [] [] regsG).completes = none := by decide
theorem witness_NotConstructedIsRefused :
    (start .v12 [] [0x200000000#36]).seq = .idle ∧ (start .v12 [] [0x200000000#36]).regs = none ∧
      (start .v12 [] [0x200000000#36]).requests = 0x200000000#36 :: [] ∧
      decode 0x200000000#36 = .ok .initializeOp ∧ ∀ a r g p m l, Instr.initializeOp ≠ .construct a r g p m l :=
  ⟨rfl, rfl, rfl, rfl, by intros; exact fun h => nomatch h⟩
theorem witness_IllegalRequestIsRefused :
    (running .v12 [] [0x300000002#36] regsA).seq = .idle ∧
      (running .v12 [] [0x300000002#36] regsA).requests = 0x300000002#36 :: [] ∧ legalWord 0x300000002#36 = false := by
  decide
theorem witness_StepRunsTheDecodedOperation :
    (running .v12 [] [0x300000001#36] regsA).seq = .idle ∧
      (running .v12 [] [0x300000001#36] regsA).requests = 0x300000001#36 :: [] ∧
      decode 0x300000001#36 = .ok (.setGain .x2) := ⟨rfl, rfl, rfl⟩
theorem witness_NoRequestNoChange : State.reset.seq = .idle ∧ State.reset.requests = [] := ⟨rfl, rfl⟩
theorem witness_BusySequencerTakesNoRequest :
    ({ running .v12 [.error] [0x300000001#36] regsA with seq := .acknowledge } : State).seq ≠ .idle ∧
      ∃ t, step { running .v12 [.error] [0x300000001#36] regsA with seq := .acknowledge } = .next t :=
  ⟨by decide, _, rfl⟩
theorem witness_OneResponsePerOperation :
    (∃ t, exec .initializeOp (running .v12 [.error] [] regsA) = .next t ∧ t.seq = .idle) ∧
      ∃ t, exec .initializeOp { running .v12 [.error] [] regsA with completes := some 4 } = .next t ∧
        t.seq = .acknowledge := ⟨⟨_, rfl, rfl⟩, _, rfl, rfl⟩
theorem witness_UncompletedCallLeavesNoResponse :
    (running .v8 [] [] regsG).regs = some regsG ∧ 0 < frameLength .v8 + 2 ∧ 3 < frameLength .v8 + 2 ∧
      ({ running .v8 [] [] regsG with completes := some 3 } : State).completes = some 3 := by decide
theorem witness_StuckPhaseIsNeverLeft :
    seqLegal { running .v8 [] [] regsG with completes := some 0, seq := .transmit 2 } = true ∧
      seqLegal { running .v8 [] [] regsG with completes := some 0, seq := .transmit 0 } = true ∧
      seqLegal { running .v8 [] [] regsG with completes := some 0, seq := .acknowledge } = true := by decide
theorem witness_StepwiseReadingAgrees :
    (running .v12 [.error] [0x700000002#36] regsC).seq = .idle ∧
      (running .v12 [.error] [0x700000002#36] regsC).requests = 0x700000002#36 :: [] ∧
      decode 0x700000002#36 = .ok (.downloadParameters .allMemory) ∧
      busOperation (.downloadParameters .allMemory) = some (.download .allMemory) ∧
      (running .v12 [.error] [0x700000002#36] regsC).regs = some regsC := ⟨rfl, rfl, rfl, rfl, rfl⟩
theorem witness_StepwiseReadingAgrees_other :
    (running .v12 [] [0x300000001#36] regsC).seq = .idle ∧
      requestAtPort (running .v12 [] [0x300000001#36] regsC) = some (.ok (.setGain .x2)) ∧
      busOperation (.setGain .x2) = none := ⟨rfl, rfl, rfl⟩
theorem witness_PhasesInOrder :
    (running .v8 [.error] [0x200000000#36] regsG).seq = .idle ∧
      (running .v8 [.error] [0x200000000#36] regsG).requests = 0x200000000#36 :: [] ∧
      decode 0x200000000#36 = .ok .initializeOp ∧ busOperation .initializeOp = some .initializeOp ∧
      (running .v8 [.error] [0x200000000#36] regsG).regs = some regsG ∧
      (running .v8 [.error] [0x200000000#36] regsG).canComplete (frameLength .v8 + 2) = true :=
  ⟨rfl, rfl, rfl, rfl, rfl, rfl⟩
theorem witness_EveryStepKeepsTheInvariant :
    RunInvariant { running .v12 [.error] [] regsC with
      seq := .transmit 2, trace := [.beginTransaction 0x60#7, .writeByte 0x19#8] } ∧
      ∃ t, step { running .v12 [.error] [] regsC with
        seq := .transmit 2, trace := [.beginTransaction 0x60#7, .writeByte 0x19#8] } = .next t :=
  ⟨⟨rfl, rfl, rfl⟩, _, rfl⟩
theorem witness_EverySequencerStepKeepsTheInvariant :
    RunInvariant (running .v12 [.error] [0x200000000#36] regsC) ∧
      ∃ t, seqStep (running .v12 [.error] [0x200000000#36] regsC) = .next t := ⟨⟨rfl, rfl, rfl⟩, _, rfl⟩
theorem witness_NoFaultFromTheInvariant : RunInvariant (running .v8 [] [] regsG) := ⟨rfl, rfl, rfl⟩
theorem witness_RegisterWriteTable :
    (running .v10 [.error] [] regsG).regs = some regsG ∧
      ∃ t, exec (.downloadParameters .volatileCommand) (running .v10 [.error] [] regsG) = .next t := ⟨rfl, _, rfl⟩
theorem witness_OnlyConstructChangesTheAddress :
    ∃ t y, step (running .v12 [] [0x110440001#36] regsC) = .next t ∧
      (running .v12 [] [0x110440001#36] regsC).regs = some regsC ∧ t.regs = some y ∧ regsC.addr ≠ y.addr :=
  ⟨_, _, rfl, rfl, rfl, by decide⟩
theorem witness_OnlyConstructStartsALifetime :
    (∃ t, step (running .v12 [] [0x110440001#36] regsC) = .next t ∧
      (running .v12 [] [0x110440001#36] regsC).regs.isSome = true) ∧
      ∃ t, step (start .v12 [] [0x110440001#36]) = .next t ∧ (start .v12 [] [0x110440001#36]).regs = none ∧
        t.regs.isSome = true := ⟨⟨_, rfl, rfl⟩, _, rfl, rfl, rfl⟩
theorem witness_HistoryOnlyGrows : ∃ t, step (running .v12 [.error] [0x200000000#36] regsC) = .next t := ⟨_, rfl⟩
theorem witness_HistoryIsNotRead : ∃ t, exec .initializeOp (running .v12 [.error] [] regsC) = .next t := ⟨_, rfl⟩
theorem witness_StatusReachesOnlyTheResponse :
    ∃ t, exec (.downloadParameters .allMemory) (running .v8 [.error] [] regsG) = .next t := ⟨_, rfl⟩
theorem witness_SetterLaws :
    (∃ t, runOps [.setGain .x1, .setGain .x2] (running .v12 [] [] regsA) = .next t) ∧
      (∃ t, exec (.setGain .x2) (running .v12 [] [] regsA) = .next t) ∧
      (∃ t, runOps [.setVoltageReference .vrefBuffered, .setVoltageReference .vrefUnbuffered]
        (running .v12 [] [] regsA) = .next t) ∧
      (∃ t, exec (.setVoltageReference .vrefUnbuffered) (running .v12 [] [] regsA) = .next t) ∧
      (∃ t, runOps [.setPowerMode .powerDown1k, .setPowerMode .powerDown100k] (running .v12 [] [] regsA) = .next t) ∧
      ∃ t, exec (.setPowerMode .powerDown100k) (running .v12 [] [] regsA) = .next t :=
  ⟨⟨_, rfl⟩, ⟨_, rfl⟩, ⟨_, rfl⟩, ⟨_, rfl⟩, ⟨_, rfl⟩, _, rfl⟩
theorem witness_SettersReachTheNextFrame :
    (running .v12 [] [] regsG).regs = some regsG ∧ (running .v12 [] [] regsG).completes = none := ⟨rfl, rfl⟩
theorem witness_OnlyTheLastStagedLevelIsSent :
    (running .v8 [] [] regsC).regs = some regsC ∧ (running .v8 [] [] regsC).completes = none := ⟨rfl, rfl⟩
theorem witness_RetrySendsTheSameFrame :
    (running .v10 [.error, .noError] [] regsC).regs = some regsC ∧
      (running .v10 [.error, .noError] [] regsC).completes = none ∧
      (running .v10 [.error, .noError] [] regsC).script = .error :: .noError :: [] := ⟨rfl, rfl, rfl⟩
theorem witness_HardwareResetAtABoundary :
    (running .v12 [] [] regsA).seq = .idle ∧
      ({ running .v12 [] [] regsA with seq := .transmit 1 } : State).seq ≠ .idle := by decide

end Sys2Proof.Tests
end

section
/-! PROOFS. The statements on scope: a step in `IDLE` is the meaning of the decoded word (00_scope.md R9), and no step takes
anything back from the observations or touches a parameter (R6, R7, R11; 20_memory.md R65). -/

namespace Sys2Proof.Machine

/-! ## One step, by the phase of the sequencer (R9, R95) -/

theorem step_of_idle {s : State} (h : s.seq = .idle) : step s = serveRequest exec s := by
  simp [step, h]

theorem step_of_busy {s : State} (h : s.seq ≠ .idle) : step s = advanceSequencer s := by
  cases hs : s.seq with
  | idle => exact absurd hs h
  | configure op => simp [step, hs]
  | transmit idx => simp [step, hs]
  | acknowledge => simp [step, hs]

theorem serveRequest_of_decode {run : Instr → State → Host.Outcome State Fault Refusal} {s : State}
    {w : RequestWord} {ws : List RequestWord} {i : Instr} (hr : s.requests = w :: ws) (hd : decode w = .ok i) :
    serveRequest run s = run i s := by
  simp [serveRequest, requestAtPort, hr, hd]

/-- All that `advanceSequencer` can answer with a next state (R178). -/
theorem advanceSequencer_cases {s t : State} (h : advanceSequencer s = .next t) :
    (s.seq = .idle ∧ t = s) ∨
    (∃ op, s.seq = .configure op ∧ t = seqConfigure op s) ∨
    (∃ idx, s.seq = .transmit idx ∧ seqTransmit idx s = .next t) ∨
    (s.seq = .acknowledge ∧ t = seqAcknowledge s) := by
  cases hs : s.seq with
  | idle => exact .inl ⟨rfl, by simpa [advanceSequencer, hs] using h.symm⟩
  | configure op => exact .inr (.inl ⟨op, rfl, by simpa [advanceSequencer, hs] using h.symm⟩)
  | transmit idx => exact .inr (.inr (.inl ⟨idx, rfl, by simpa [advanceSequencer, hs] using h⟩))
  | acknowledge => exact .inr (.inr (.inr ⟨rfl, by simpa [advanceSequencer, hs] using h.symm⟩))

/-- Settles O34: in `IDLE` a step serves the request at the port, and that word decodes. -/
theorem stepRunsTheDecodedOperation : Obligations.StepRunsTheDecodedOperation := by
  intro s w ws i hseq hreq hdec
  calc step s = serveRequest exec s := step_of_idle hseq
    _ = exec i s := serveRequest_of_decode hreq hdec

/-! ## The observations only grow (R11), the parameters stay (R6, R7) -/

/-- `t` has the parameters of `s`, and its observations start with those of `s`. -/
structure HistoryExtends (s t : State) : Prop where
  trace : s.trace <+: t.trace
  responses : s.responses <+: t.responses
  variant : t.variant = s.variant
  lvl8Sel : t.lvl8Sel = s.lvl8Sel

namespace HistoryExtends

@[refl] theorem refl (s : State) : HistoryExtends s s :=
  ⟨List.prefix_rfl, List.prefix_rfl, rfl, rfl⟩

variable {s t : State}

/-! Each update of the state keeps it. -/

theorem answer (h : HistoryExtends s t) (r : Response) : HistoryExtends s (t.answer r) :=
  ⟨h.trace, h.responses.trans (List.prefix_append _ _), h.variant, h.lvl8Sel⟩

theorem emit (h : HistoryExtends s t) (es : List Event) : HistoryExtends s (t.emit es) :=
  ⟨h.trace.trans (List.prefix_append _ _), h.responses, h.variant, h.lvl8Sel⟩

theorem setRegs (h : HistoryExtends s t) (x : Registers) : HistoryExtends s (t.setRegs x) :=
  ⟨h.trace, h.responses, h.variant, h.lvl8Sel⟩

theorem completeCalls (h : HistoryExtends s t) (n : Nat) : HistoryExtends s (t.completeCalls n) :=
  ⟨h.trace, h.responses, h.variant, h.lvl8Sel⟩

theorem takeStatus (h : HistoryExtends s t) : HistoryExtends s t.takeStatus :=
  ⟨h.trace, h.responses, h.variant, h.lvl8Sel⟩

theorem withSeq (h : HistoryExtends s t) (q : Seq) : HistoryExtends s { t with seq := q } :=
  ⟨h.trace, h.responses, h.variant, h.lvl8Sel⟩

theorem withRegsAndSeq (h : HistoryExtends s t) (x : Option Registers) (q : Seq) :
    HistoryExtends s { t with regs := x, seq := q } :=
  ⟨h.trace, h.responses, h.variant, h.lvl8Sel⟩

/-- A full write appends the calls that were completed and, if the transaction ended, one response (R54, R175). -/
theorem finishWrite_writeCommand (h : HistoryExtends s t) (mt : MemoryTarget) (x : Registers) :
    HistoryExtends s (finishWrite (writeCommand mt x t)) := by
  unfold writeCommand
  obtain ⟨-, hw⟩ | ⟨k, -, -, hw⟩ :=
    memWrite_cases x.addr (frame t.variant t.lvl8Sel { x with memt := mt }) t
  · rw [hw, finishWrite_some]
    exact (((h.emit _).completeCalls _).takeStatus).answer _
  · rw [hw, finishWrite_none]
    exact ((h.emit _).completeCalls _).withSeq _

end HistoryExtends

/-- An operation behind the registers' guard extends the history when its body does: a refusal is one response (R209). -/
theorem withRegisters_historyExtends {s t : State} {run : Registers → State}
    (hrun : ∀ x, HistoryExtends s (run x)) (h : withRegisters s run = .next t) : HistoryExtends s t := by
  obtain ⟨-, rfl⟩ | ⟨x, -, rfl⟩ := withRegisters_cases h
  · exact (HistoryExtends.refl s).answer _
  · exact hrun x

theorem exec_historyExtends {i : Instr} {s t : State} (h : exec i s = .next t) : HistoryExtends s t := by
  have hs : HistoryExtends s s := .refl s
  cases i with
  | construct a r g p m l =>
    cases h
    exact (hs.setRegs _).answer _
  | initializeOp => exact withRegisters_historyExtends (fun x => hs.finishWrite_writeCommand x.memt x) h
  | setGain g => exact withRegisters_historyExtends (fun _ => (hs.setRegs _).answer _) h
  | setVoltageReference r => exact withRegisters_historyExtends (fun _ => (hs.setRegs _).answer _) h
  | setPowerMode p => exact withRegisters_historyExtends (fun _ => (hs.setRegs _).answer _) h
  | setOutputLevelVolatileFast l => exact withRegisters_historyExtends (fun _ => (hs.setRegs _).answer _) h
  | downloadParameters mt =>
    exact withRegisters_historyExtends (fun _ => (hs.setRegs _).finishWrite_writeCommand mt _) h

theorem seqConfigure_historyExtends (op : BusOp) (s : State) : HistoryExtends s (seqConfigure op s) := by
  obtain ⟨-, hc⟩ | ⟨mt, -, hc⟩ := seqConfigure_cases op s
  · rw [hc]; exact (HistoryExtends.refl s).withSeq _
  · rw [hc]; exact (HistoryExtends.refl s).withRegsAndSeq _ _

theorem seqTransmit_historyExtends {idx : Nat} {s t : State} (h : seqTransmit idx s = .next t) :
    HistoryExtends s t := by
  obtain ⟨x, call, -, -, ⟨-, rfl⟩ | ⟨-, rfl⟩⟩ := seqTransmit_cases h
  · rfl
  · exact (((HistoryExtends.refl s).emit _).completeCalls _).withSeq _

theorem seqAcknowledge_historyExtends (s : State) : HistoryExtends s (seqAcknowledge s) := by
  obtain ⟨-, ha⟩ | ⟨-, ha⟩ := seqAcknowledge_cases s
  · rw [ha]
  · rw [ha]
    exact ((((HistoryExtends.refl s).emit _).completeCalls _).takeStatus.withSeq _).answer _

theorem advanceSequencer_historyExtends {s t : State} (h : advanceSequencer s = .next t) : HistoryExtends s t := by
  obtain ⟨-, rfl⟩ | ⟨op, -, rfl⟩ | ⟨idx, -, ht⟩ | ⟨-, rfl⟩ := advanceSequencer_cases h
  · rfl
  · exact seqConfigure_historyExtends op s
  · exact seqTransmit_historyExtends ht
  · exact seqAcknowledge_historyExtends s

/-- In `IDLE` the request is served, whatever the operations are, as long as each extends the history. -/
theorem serveRequest_historyExtends {run : Instr → State → Host.Outcome State Fault Refusal} {s t : State}
    (hrun : ∀ i, run i s = .next t → HistoryExtends s t) (h : serveRequest run s = .next t) :
    HistoryExtends s t := by
  obtain ⟨-, hs⟩ | ⟨w, ws, e, -, -, hs⟩ | ⟨w, ws, i, -, -, hs⟩ := serveRequest_cases run s <;> rw [hs] at h
  · cases h; rfl
  · cases h; exact (HistoryExtends.refl s).answer _
  · exact hrun i h

theorem step_historyExtends {s t : State} (h : step s = .next t) : HistoryExtends s t := by
  by_cases hseq : s.seq = .idle
  · rw [step_of_idle hseq] at h
    exact serveRequest_historyExtends (fun _ => exec_historyExtends) h
  · rw [step_of_busy hseq] at h
    exact advanceSequencer_historyExtends h

/-- Settles O52: every step extends the history, whether it serves a request or advances the sequencer. -/
theorem historyOnlyGrows : Obligations.HistoryOnlyGrows := by
  intro s t h
  obtain ⟨htrace, hresponses, hvariant, hlvl8Sel⟩ := step_historyExtends h
  exact ⟨htrace, hresponses, hvariant, hlvl8Sel⟩

end Sys2Proof.Machine
end

section
/-! PROOFS. The statements on the state (10_state.md): the bytes of the wire level (R35, R36), power-on (R39), the
registers an operation writes (R21, R27, R30), and that no operation reads the history (R37, R38; 60_exceptions.md R204). -/

namespace Sys2Proof.Machine

/-! ## The bytes of the wire level (R35, R36) -/

theorem lvlHi_toNat (wl : Level) : (lvlHi wl).toNat = wl.toNat / 256 := by
  have hwl : wl.toNat < 65536 := wl.isLt
  simp only [lvlHi, BitVec.extractLsb'_toNat, Nat.shiftRight_eq_div_pow]
  omega

theorem lvlLo_toNat (wl : Level) : (lvlLo wl).toNat = wl.toNat % 256 := by
  simp [lvlLo, BitVec.extractLsb'_toNat]

/-- Low bits that the level mask clears are zero in the lower byte. -/
theorem lvlLo_wireLevel_lowBits {v : Variant} {k : Nat} (hmask : (lvlLo (lmask v)).extractLsb' 0 k = 0#k)
    (l : Level) : (lvlLo (wireLevel v l)).extractLsb' 0 k = 0#k := by
  have hbyte : lvlLo (wireLevel v l) = lvlLo l &&& lvlLo (lmask v) := BitVec.extractLsb'_and
  rw [hbyte, BitVec.extractLsb'_and, hmask, BitVec.and_zero]

/-- Settles O9: both bytes as numbers for every wire level, the forced bits from the masks of `V10` and `V8`. -/
theorem levelBytesAreSlicesOfTheWireLevel : Obligations.LevelBytesAreSlicesOfTheWireLevel :=
  ⟨fun v l => lvlHi_toNat (wireLevel v l), fun v l => lvlLo_toNat (wireLevel v l),
    lvlLo_wireLevel_lowBits (v := .v10) (by decide), lvlLo_wireLevel_lowBits (v := .v8) (by decide)⟩

/-! ## Power-on (R39, R231) -/

/-- Settles O43: the four values stand in `State.reset`. -/
theorem powerOnState : Obligations.PowerOnState := ⟨rfl, rfl, rfl, rfl⟩

/-- Settles O44: the sequencer is in `IDLE`, which is legal without registers, the empty trace is outside a transaction,
and no operation has been counted or answered. -/
theorem invariantAtReset : Obligations.InvariantAtReset := by
  have hlegal : seqLegal State.reset = true := rfl
  have hscan : scanTrace State.reset.variant State.reset.lvl8Sel State.reset.trace =
      some (scanOfSeq State.reset.variant State.reset.seq) := rfl
  have hcount : State.reset.responses.length = State.reset.index := rfl
  exact ⟨hlegal, hscan, hcount⟩

/-! ## One form for the seven operations

An operation either finds no registers and is refused, or it leaves the registers R27 says and then answers or makes one
full write. `exec_eq_opState` ties this form to `exec`. -/

/-- R27: the registers after an operation. Only `construct` gives them values where they held none (R30). -/
def writtenRegs : Instr → Option Registers → Option Registers
  | .construct a r g p m l, _ => some ⟨a, r, g, p, m, l⟩
  | .initializeOp, regs => regs
  | .setGain g, regs => regs.map fun x => { x with gain := g }
  | .setVoltageReference r, regs => regs.map fun x => { x with ref := r }
  | .setPowerMode p, regs => regs.map fun x => { x with pd := p }
  | .setOutputLevelVolatileFast l, regs => regs.map fun x => { x with level := l }
  | .downloadParameters mt, regs => regs.map fun x => { x with memt := mt }

/-- The result byte of an operation that sends nothing (R100, R160). -/
def silentResult (i : Instr) (s : State) : Byte :=
  match i with
  | .setOutputLevelVolatileFast l => fastPathByte s.variant s.lvl8Sel l
  | _ => 0#8

/-- An accepted operation that leaves the registers `y`: one response, or one full write of `y`. -/
def acceptedState (i : Instr) (y : Registers) (s : State) : State :=
  match busOperation i with
  | none => (s.setRegs y).answer (.ok (silentResult i s))
  | some _ => finishWrite (writeCommand y.memt y (s.setRegs y))

/-- The state an operation leads to. -/
def opState (i : Instr) (s : State) : State :=
  match writtenRegs i s.regs with
  | none => s.answer (.refused .notConstructed)
  | some y => acceptedState i y s

theorem acceptedState_of_silent {i : Instr} (hi : busOperation i = none) (y : Registers) (s : State) :
    acceptedState i y s = (s.setRegs y).answer (.ok (silentResult i s)) := by
  simp [acceptedState, hi]

theorem acceptedState_of_bus {i : Instr} {op : BusOp} (hi : busOperation i = some op) (y : Registers) (s : State) :
    acceptedState i y s = finishWrite (writeCommand y.memt y (s.setRegs y)) := by
  simp [acceptedState, hi]

theorem opState_of_refused {i : Instr} {s : State} (h : writtenRegs i s.regs = none) :
    opState i s = s.answer (.refused .notConstructed) := by
  simp [opState, h]

theorem opState_of_accepted {i : Instr} {s : State} {y : Registers} (h : writtenRegs i s.regs = some y) :
    opState i s = acceptedState i y s := by
  simp [opState, h]

theorem State.setRegs_of_regs {s : State} {x : Registers} (h : s.regs = some x) : s.setRegs x = s := by
  simp [State.setRegs, ← h]

/-- An operation behind the registers' guard that writes them by `f`. -/
theorem withRegisters_eq_opState {i : Instr} {s : State} {run : Registers → State} (f : Registers → Registers)
    (hwritten : writtenRegs i s.regs = s.regs.map f)
    (hrun : ∀ x, s.regs = some x → run x = acceptedState i (f x) s) :
    withRegisters s run = .next (opState i s) := by
  cases hs : s.regs with
  | none => rw [withRegisters_none hs, opState_of_refused (by rw [hwritten, hs]; rfl)]
  | some x => rw [withRegisters_some hs, opState_of_accepted (by rw [hwritten, hs]; rfl), hrun x hs]

theorem exec_eq_opState (i : Instr) (s : State) : exec i s = .next (opState i s) := by
  cases i with
  | construct a r g p m l => rfl
  | initializeOp =>
    refine withRegisters_eq_opState id (Option.map_id_apply ..).symm fun x hx => ?_
    simp [acceptedState_of_bus (i := .initializeOp) rfl, State.setRegs_of_regs hx]
  | setGain g => exact withRegisters_eq_opState _ rfl fun _ _ => rfl
  | setVoltageReference r => exact withRegisters_eq_opState _ rfl fun _ _ => rfl
  | setPowerMode p => exact withRegisters_eq_opState _ rfl fun _ _ => rfl
  | setOutputLevelVolatileFast l => exact withRegisters_eq_opState _ rfl fun _ _ => rfl
  | downloadParameters mt => exact withRegisters_eq_opState _ rfl fun _ _ => rfl

/-- An operation that answers has gone to `opState`. -/
theorem eq_opState_of_exec {i : Instr} {s t : State} (h : exec i s = .next t) : t = opState i s := by
  simpa [exec_eq_opState] using h.symm

/-! ## The registers an operation writes (R27) -/

@[simp] theorem finishWrite_writeCommand_regs (mt : MemoryTarget) (x : Registers) (s : State) :
    (finishWrite (writeCommand mt x s)).regs = s.regs := by
  unfold writeCommand
  obtain ⟨-, hw⟩ | ⟨k, -, -, hw⟩ := memWrite_cases x.addr (frame s.variant s.lvl8Sel { x with memt := mt }) s
  · simp [hw, finishWrite_some]
  · simp [hw, finishWrite_none]

@[simp] theorem acceptedState_regs (i : Instr) (y : Registers) (s : State) : (acceptedState i y s).regs = some y := by
  cases hi : busOperation i with
  | none => simp [acceptedState_of_silent hi]
  | some op => simp [acceptedState_of_bus hi]

/-- Registers that hold values hold values after every operation. -/
theorem regs_eq_none_of_writtenRegs {i : Instr} {regs : Option Registers} (h : writtenRegs i regs = none) :
    regs = none := by
  cases regs with
  | none => rfl
  | some x => cases i <;> cases h

@[simp] theorem opState_regs (i : Instr) (s : State) : (opState i s).regs = writtenRegs i s.regs := by
  cases h : writtenRegs i s.regs with
  | none => simp [opState_of_refused h, regs_eq_none_of_writtenRegs h]
  | some y => simp [opState_of_accepted h]

/-- `t` has the trace and the transport of `s`: nothing has been sent. -/
structure NothingSent (s t : State) : Prop where
  trace : t.trace = s.trace
  drawn : t.drawn = s.drawn
  completes : t.completes = s.completes
  script : t.script = s.script

/-- R27: an operation that touches no bus sends nothing, refused or not. -/
theorem opState_nothingSent {i : Instr} (hi : busOperation i = none) (s : State) : NothingSent s (opState i s) := by
  cases h : writtenRegs i s.regs with
  | none =>
    rw [opState_of_refused h]
    exact ⟨rfl, rfl, rfl, rfl⟩
  | some y =>
    rw [opState_of_accepted h, acceptedState_of_silent hi]
    exact ⟨rfl, rfl, rfl, rfl⟩

/-- Settles O49: the registers are `writtenRegs`, which is R27's table; the parameters stay by
`exec_historyExtends`. -/
theorem registerWriteTable : Obligations.RegisterWriteTable := by
  intro i s t x hx h
  obtain ⟨-, -, hvariant, hlvl8Sel⟩ := exec_historyExtends h
  obtain rfl := eq_opState_of_exec h
  refine ⟨hvariant, hlvl8Sel, fun hi => ?_, ?_⟩
  · obtain ⟨htrace, hdrawn, hcompletes, hscript⟩ := opState_nothingSent hi s
    exact ⟨htrace, hdrawn, hcompletes, hscript⟩
  · rw [opState_regs, hx]
    cases i <;> rfl

/-! ## `ADDR` and the lifetime of the registers (R21, R30) -/

/-- `ADDR`, absent as long as the registers hold no value. -/
def State.addr? (s : State) : Option BusAddress := s.regs.map Registers.addr

theorem State.addr?_of_regs {s : State} {x : Registers} (h : s.regs = some x) : s.addr? = some x.addr := by
  simp [State.addr?, h]

theorem State.regs_isSome_of_addr? {s t : State} (h : t.addr? = s.addr?) : t.regs.isSome = s.regs.isSome := by
  simpa [State.addr?] using congrArg Option.isSome h

/-- R21: every operation but `construct` keeps `ADDR`, or its absence. -/
theorem opState_addr? (i : Instr) (s : State) :
    (opState i s).addr? = s.addr? ∨ ∃ a r g p m l, i = .construct a r g p m l := by
  unfold State.addr?
  rw [opState_regs]
  cases i with
  | construct a r g p m l => exact .inr ⟨a, r, g, p, m, l, rfl⟩
  | initializeOp => exact .inl rfl
  | setGain g => exact .inl (Option.map_map ..)
  | setVoltageReference r => exact .inl (Option.map_map ..)
  | setPowerMode p => exact .inl (Option.map_map ..)
  | setOutputLevelVolatileFast l => exact .inl (Option.map_map ..)
  | downloadParameters mt => exact .inl (Option.map_map ..)

theorem seqConfigure_addr? (op : BusOp) (s : State) : (seqConfigure op s).addr? = s.addr? := by
  obtain ⟨-, hc⟩ | ⟨mt, -, hc⟩ := seqConfigure_cases op s <;> rw [hc]
  · rfl
  · exact Option.map_map ..

theorem seqTransmit_addr? {idx : Nat} {s t : State} (h : seqTransmit idx s = .next t) : t.addr? = s.addr? := by
  obtain ⟨x, call, -, -, ⟨-, rfl⟩ | ⟨-, rfl⟩⟩ := seqTransmit_cases h <;> rfl

theorem seqAcknowledge_addr? (s : State) : (seqAcknowledge s).addr? = s.addr? := by
  obtain ⟨-, ha⟩ | ⟨-, ha⟩ := seqAcknowledge_cases s <;> rw [ha]
  rfl

theorem advanceSequencer_addr? {s t : State} (h : advanceSequencer s = .next t) : t.addr? = s.addr? := by
  obtain ⟨-, rfl⟩ | ⟨op, -, rfl⟩ | ⟨idx, -, ht⟩ | ⟨-, rfl⟩ := advanceSequencer_cases h
  · rfl
  · exact seqConfigure_addr? op s
  · exact seqTransmit_addr? ht
  · exact seqAcknowledge_addr? s

/-- R21, R30: a step keeps `ADDR`, or its absence, unless it is the step of a `construct`. -/
theorem step_addr?_or_construct {s t : State} (h : step s = .next t) :
    t.addr? = s.addr? ∨
      (s.seq = .idle ∧ ∃ w ws a r g p m l, s.requests = w :: ws ∧ decode w = .ok (.construct a r g p m l) ∧
        t.regs = some ⟨a, r, g, p, m, l⟩) := by
  by_cases hseq : s.seq = .idle
  · rw [step_of_idle hseq] at h
    obtain ⟨-, hs⟩ | ⟨w, ws, e, -, -, hs⟩ | ⟨w, ws, i, hreq, hdec, hs⟩ := serveRequest_cases exec s <;>
      rw [hs] at h
    · cases h; exact .inl rfl
    · cases h; exact .inl rfl
    · obtain rfl := eq_opState_of_exec h
      obtain haddr | ⟨a, r, g, p, m, l, rfl⟩ := opState_addr? i s
      · exact .inl haddr
      · exact .inr ⟨hseq, w, ws, a, r, g, p, m, l, hreq, hdec, opState_regs _ s⟩
  · rw [step_of_busy hseq] at h
    exact .inl (advanceSequencer_addr? h)

/-- Settles O50: where the two addresses differ, `step_addr?_or_construct` leaves the `construct` only. -/
theorem onlyConstructChangesTheAddress : Obligations.OnlyConstructChangesTheAddress := by
  intro s t x y h hx hy hne
  obtain haddr | ⟨hseq, w, ws, a, r, g, p, m, l, hreq, hdec, hregs⟩ := step_addr?_or_construct h
  · rw [State.addr?_of_regs hx, State.addr?_of_regs hy] at haddr
    exact absurd (Option.some.inj haddr).symm hne
  · obtain rfl := Option.some.inj (hregs.symm.trans hy)
    exact ⟨hseq, w, ws, r, g, p, m, l, hreq, hdec⟩

/-- Settles O51: the registers hold values exactly when `ADDR` is there, and `construct` gives them values. -/
theorem onlyConstructStartsALifetime : Obligations.OnlyConstructStartsALifetime := by
  constructor
  · intro s t h hs
    obtain haddr | ⟨-, w, ws, a, r, g, p, m, l, -, -, hregs⟩ := step_addr?_or_construct h
    · rw [State.regs_isSome_of_addr? haddr, hs]
    · simp [hregs]
  · intro s t h hs ht
    obtain haddr | ⟨-, hconstruct⟩ := step_addr?_or_construct h
    · simp [State.regs_isSome_of_addr? haddr, hs] at ht
    · exact hconstruct

/-! ## No operation reads the history (R37, R38, R204) -/

/-- `s` after another history: any trace, any responses, any count of operations. -/
def State.withHistory (tr : List Event) (rs : List ResponseWord) (n : Nat) (s : State) : State :=
  { s with trace := tr, responses := rs, index := n }

/-- `f` adds the same to every history and does the same to the rest of `s`. -/
def HistoryBlind (f : State → State) (s : State) : Prop :=
  ∃ es r d, ∀ tr rs n,
    f (s.withHistory tr rs n) = (f s).withHistory (tr ++ es) (rs ++ r) (n + d)

theorem answer_historyBlind (r : Response) (s : State) : HistoryBlind (State.answer r) s :=
  ⟨[], [r.word], 1, fun tr rs n => by rw [List.append_nil]; rfl⟩

/-- A transaction looks at the transport only, both when it ends and when it is left stuck (R54, R175). -/
theorem finishWrite_memWrite_historyBlind (a : BusAddress) (bs : List Byte) (s : State) :
    HistoryBlind (fun s => finishWrite (memWrite a bs s)) s := by
  obtain ⟨hc, hw⟩ | ⟨k, hk, hlt, hw⟩ := memWrite_cases a bs s
  · refine ⟨transactionCalls a bs ++ [.endTransaction s.status], [(responseOfStatus s.status).word], 1,
      fun tr rs n => ?_⟩
    beta_reduce
    rw [memWrite_complete (s := s.withHistory tr rs n) hc, hw, finishWrite_some, finishWrite_some]
    rfl
  · refine ⟨(transactionCalls a bs).take k, [], 0, fun tr rs n => ?_⟩
    beta_reduce
    rw [memWrite_stuck (s := s.withHistory tr rs n) hk hlt, hw, finishWrite_none, finishWrite_none, List.append_nil]
    rfl

/-- A full write reads the parameters besides, and they are no part of the history. -/
theorem finishWrite_writeCommand_historyBlind (mt : MemoryTarget) (x : Registers) (s : State) :
    HistoryBlind (fun s => finishWrite (writeCommand mt x s)) s :=
  finishWrite_memWrite_historyBlind x.addr (frame s.variant s.lvl8Sel { x with memt := mt }) s

/-- Functions that agree where the registers are those of `s` are blind together. -/
theorem HistoryBlind.congr {f g : State → State} {s : State} (hg : HistoryBlind g s)
    (hfg : ∀ u, u.regs = s.regs → f u = g u) : HistoryBlind f s := by
  obtain ⟨es, r, d, hblind⟩ := hg
  refine ⟨es, r, d, fun tr rs n => ?_⟩
  rw [hfg s rfl, hfg (s.withHistory tr rs n) rfl, hblind]

theorem acceptedState_historyBlind (i : Instr) (y : Registers) (s : State) : HistoryBlind (acceptedState i y) s := by
  cases hi : busOperation i with
  | none =>
    have hanswer : HistoryBlind (fun u => (u.setRegs y).answer (.ok (silentResult i u))) s :=
      answer_historyBlind (.ok (silentResult i s)) (s.setRegs y)
    exact hanswer.congr fun u _ => acceptedState_of_silent hi y u
  | some op =>
    have hwrite : HistoryBlind (fun u => finishWrite (writeCommand y.memt y (u.setRegs y))) s :=
      finishWrite_writeCommand_historyBlind y.memt y (s.setRegs y)
    exact hwrite.congr fun u _ => acceptedState_of_bus hi y u

theorem opState_historyBlind (i : Instr) (s : State) : HistoryBlind (opState i) s := by
  cases h : writtenRegs i s.regs with
  | none => exact (answer_historyBlind _ s).congr fun u hu => opState_of_refused (hu ▸ h)
  | some y => exact (acceptedState_historyBlind i y s).congr fun u hu => opState_of_accepted (hu ▸ h)

/-- Settles O53: what is appended is read off the run from `s` itself, whose history is one among all. -/
theorem historyIsNotRead : Obligations.HistoryIsNotRead := by
  intro i s t tr rs n h
  obtain rfl := eq_opState_of_exec h
  obtain ⟨es, r, d, hblind⟩ := opState_historyBlind i s
  have hown : opState i s =
      (opState i s).withHistory (s.trace ++ es) (s.responses ++ r) (s.index + d) :=
    hblind s.trace s.responses s.index
  refine ⟨es, r, d, congrArg State.trace hown, congrArg State.responses hown, congrArg State.index hown, ?_⟩
  rw [exec_eq_opState]
  exact congrArg Host.Outcome.next (hblind tr rs n)

end Sys2Proof.Machine
end

section
/-! PROOFS. The statements on memory (20_memory.md): the level mask (R59, R60, R64, R66), the level bytes and the frame
(R61, R62; 30_encoding.md R80), the status of a transaction (R53), and that the next frame carries every setting
(R68). -/

namespace Sys2Proof.Machine

/-! ## The wire level as a number (R59, R60, R66) -/

/-- R59: how many low bits of the level a variant forces to zero. -/
def clearedBits : Variant → Nat
  | .v12 => 0
  | .v10 => 2
  | .v8 => 4

theorem lmask_eq_shiftLeft (v : Variant) : lmask v = BitVec.allOnes 16 <<< clearedBits v := by
  cases v <;> rfl

theorem levelStep_eq_two_pow (v : Variant) : levelStep v = 2 ^ clearedBits v := by
  cases v <;> rfl

theorem levelStep_pos (v : Variant) : 0 < levelStep v := by
  rw [levelStep_eq_two_pow]
  exact Nat.two_pow_pos _

/-- Masking shifts the cleared bits out and zeros in. -/
theorem wireLevel_eq_shift (v : Variant) (l : Level) :
    wireLevel v l = l >>> clearedBits v <<< clearedBits v := by
  rw [wireLevel, lmask_eq_shiftLeft, BitVec.shiftLeft_ushiftRight]

theorem wireLevel_toNat (v : Variant) (l : Level) :
    (wireLevel v l).toNat = l.toNat - l.toNat % levelStep v := by
  have hlt : l.toNat / levelStep v * levelStep v < 2 ^ 16 := (Nat.div_mul_le_self _ _).trans_lt l.isLt
  calc (wireLevel v l).toNat
      = l.toNat / levelStep v * levelStep v % 2 ^ 16 := by
        rw [wireLevel_eq_shift, BitVec.toNat_shiftLeft, BitVec.toNat_ushiftRight, Nat.shiftRight_eq_div_pow,
          Nat.shiftLeft_eq, levelStep_eq_two_pow]
    _ = l.toNat / levelStep v * levelStep v := Nat.mod_eq_of_lt hlt
    _ = l.toNat - l.toNat % levelStep v := Nat.div_mul_self_eq_mod_sub_self

theorem wireLevel_le (v : Variant) (l : Level) : (wireLevel v l).toNat ≤ l.toNat := by
  rw [wireLevel_toNat]
  exact Nat.sub_le _ _

theorem sub_wireLevel_lt (v : Variant) (l : Level) : l.toNat - (wireLevel v l).toNat < levelStep v := by
  rw [wireLevel_toNat, Nat.sub_sub_self (Nat.mod_le _ _)]
  exact Nat.mod_lt _ (levelStep_pos v)

theorem wireLevel_v12 (l : Level) : wireLevel .v12 l = l :=
  BitVec.and_allOnes

theorem wireLevel_idem (v : Variant) (l : Level) : wireLevel v (wireLevel v l) = wireLevel v l := by
  simp only [wireLevel, BitVec.and_assoc, BitVec.and_self]

theorem lvlHi_lvlLo_toNat (wl : Level) : 256 * (lvlHi wl).toNat + (lvlLo wl).toNat = wl.toNat := by
  rw [lvlHi_toNat, lvlLo_toNat]
  exact Nat.div_add_mod _ _

/-- Settles O10: the mask drops the remainder by the step; the two values are the spec's. -/
theorem maskRoundsDownToTheStep : Obligations.MaskRoundsDownToTheStep :=
  ⟨wireLevel_toNat, by decide, by decide⟩

/-- Settles O11: the order laws from `wireLevel_toNat`, the masking laws from those of `AND`. -/
theorem wireLevelLaws : Obligations.WireLevelLaws := fun v l =>
  ⟨wireLevel_le v l, wireLevel_v12 l, sub_wireLevel_lt v l, BitVec.and_self, wireLevel_idem v l,
    lvlHi_lvlLo_toNat (wireLevel v l)⟩

/-! ## The level bytes and the frame (R61, R62, R64, R80) -/

/-- Where the mask is all ones, the level reaches the wire as it is. -/
theorem wireLevel_extractLsb'_of_mask_ones {v : Variant} {k n : Nat}
    (hmask : (lmask v).extractLsb' k n = BitVec.allOnes n) (l : Level) :
    (wireLevel v l).extractLsb' k n = l.extractLsb' k n := by
  rw [wireLevel, BitVec.extractLsb'_and, hmask, BitVec.and_allOnes]

/-- R64: no variant masks the upper byte. -/
theorem lvlHi_wireLevel (v : Variant) (l : Level) : lvlHi (wireLevel v l) = l.extractLsb' 8 8 :=
  wireLevel_extractLsb'_of_mask_ones (by cases v <;> decide) l

theorem lvlHi_wireLevel_le {l : Level} (h : levelInRange l = true) (v : Variant) :
    (lvlHi (wireLevel v l)).toNat ≤ 0x0F := by
  have hl : l.toNat ≤ 4095 := of_decide_eq_true h
  have hwl := wireLevel_le v l
  rw [lvlHi_toNat]
  omega

theorem lvlLo_eq_nibbles (wl : Level) : lvlLo wl = wl.extractLsb' 4 4 ++ (lvlLo wl).extractLsb' 0 4 := by
  have hlow : (lvlLo wl).extractLsb' 0 4 = wl.extractLsb' 0 4 := BitVec.extractLsb'_extractLsb'_of_le (by decide)
  rw [hlow]
  exact (BitVec.extractLsb'_append_extractLsb'_eq_extractLsb' (start₁ := 0) (len₁ := 4) rfl).symm

/-- R61: of the lower byte of `V8` only the upper half comes from the level. -/
theorem lvlLo_wireLevel_v8 (l : Level) : lvlLo (wireLevel .v8 l) = l.extractLsb' 4 4 ++ 0#4 := by
  rw [lvlLo_eq_nibbles, wireLevel_extractLsb'_of_mask_ones (by decide), lvlLo_wireLevel_lowBits (by decide)]

theorem levelBytes_v8_low (l : Level) : levelBytes .v8 .low l = [l.extractLsb' 4 4 ++ 0#4] :=
  congrArg List.singleton (lvlLo_wireLevel_v8 l)

/-- R62, R80: the first byte written is `CMD`. -/
theorem frame_eq_append (v : Variant) (sel : Lvl8Sel) (x : Registers) :
    frame v sel x = [commandByte x] ++ levelBytes v sel x.level := rfl

/-- Settles O12: the four rows are R61's table, and for `V8` with `LOW` the byte is a function of bits 7 to 4. -/
theorem levelBytesOfEachVariant : Obligations.LevelBytesOfEachVariant :=
  ⟨fun _ _ => rfl, fun _ _ => rfl, fun _ => rfl, fun _ => rfl, levelBytes_v8_low,
    fun l l' h => by rw [levelBytes_v8_low, levelBytes_v8_low, h]⟩

/-- Settles O13: the upper byte is bits 15 to 8 of the level, and the wire level is at most the level. -/
theorem upperLevelByteIsNotMasked : Obligations.UpperLevelByteIsNotMasked :=
  ⟨lvlHi_wireLevel, fun v _ h => lvlHi_wireLevel_le h v, fun _ => rfl⟩

/-- Settles O14: the lengths by variant are those of `frameLength`. -/
theorem frameIsCommandThenLevel : Obligations.FrameIsCommandThenLevel :=
  ⟨frame_eq_append, fun sel x => ⟨frame_length .v12 sel x, frame_length .v10 sel x, frame_length .v8 sel x⟩,
    frame_length⟩

/-! ## A full write whose calls are all completed (R54, R171) -/

/-- An accepted operation that touches the bus, when the transport completes the transaction: the frame of the registers
it leaves is in the trace, and the status decides the response. -/
theorem opState_of_completed_write {i : Instr} {op : BusOp} {y : Registers} {s : State}
    (hi : busOperation i = some op) (hy : writtenRegs i s.regs = some y)
    (hc : s.canComplete (frameLength s.variant + 2) = true) :
    opState i s =
      ((((s.setRegs y).emit
        (transactionCalls y.addr (frame s.variant s.lvl8Sel y) ++ [.endTransaction s.status])).completeCalls
          (frameLength s.variant + 2)).takeStatus).answer (responseOfStatus s.status) := by
  have hlength := frame_length s.variant s.lvl8Sel y
  have hwrite := memWrite_complete (a := y.addr) (bs := frame s.variant s.lvl8Sel y) (s := s.setRegs y)
    (hlength ▸ hc)
  calc opState i s
      = finishWrite (memWrite y.addr (frame s.variant s.lvl8Sel y) (s.setRegs y)) :=
        (opState_of_accepted hy).trans (acceptedState_of_bus hi y s)
    _ = _ := by rw [hwrite, finishWrite_some, hlength]; rfl

theorem responseOfStatus_word (st : Status) :
    (responseOfStatus st).word = if st = .noError then 0x400#12 else 0x000#12 := by
  cases st <;> rfl

/-- Settles O31: the settled status is the one that ends the transaction, whichever it is. -/
theorem eitherStatusIsAdmitted : Obligations.EitherStatusIsAdmitted := by
  intro s x st hx hc
  have hwrite := opState_of_completed_write (i := .initializeOp) (s := { s with script := st :: s.script }) rfl hx
    (canComplete_none _ hc)
  refine ⟨_, exec_eq_opState _ _, ?_, ?_, ?_⟩
  · rw [opState_regs]
    rfl
  · simp [hwrite, State.status]
  · rw [hwrite, State.answer_responses, List.getLast?_concat, responseOfStatus_word]
    rfl

/-! ## What the status of a transaction reaches (R53, R201, R203) -/

/-- `s` in an environment that gives other statuses. -/
def State.withStatuses (q : List Status) (d : Nat) (s : State) : State :=
  { s with script := q, drawn := d }

/-- The lists differ in their last entry at most. -/
structure AgreeUpToLast {α : Type} (l l' : List α) : Prop where
  length : l'.length = l.length
  dropLast : l'.dropLast = l.dropLast

@[refl] theorem AgreeUpToLast.refl {α : Type} (l : List α) : AgreeUpToLast l l := ⟨rfl, rfl⟩

theorem AgreeUpToLast.concat {α : Type} (l : List α) (a b : α) : AgreeUpToLast (l ++ [a]) (l ++ [b]) :=
  ⟨by simp, by simp⟩

/-- The states differ in their last event, their last response and the statuses to come at most. -/
structure AgreeUpToStatus (t t' : State) : Prop where
  regs : t'.regs = t.regs
  seq : t'.seq = t.seq
  variant : t'.variant = t.variant
  lvl8Sel : t'.lvl8Sel = t.lvl8Sel
  requests : t'.requests = t.requests
  index : t'.index = t.index
  completes : t'.completes = t.completes
  trace : AgreeUpToLast t.trace t'.trace
  responses : AgreeUpToLast t.responses t'.responses

theorem withStatuses_agree (q : List Status) (d : Nat) (s : State) : AgreeUpToStatus s (s.withStatuses q d) :=
  ⟨rfl, rfl, rfl, rfl, rfl, rfl, rfl, .refl _, .refl _⟩

/-- A transaction that ends differs in its `End` event and the response; one that is left stuck has no status. -/
theorem finishWrite_memWrite_agree (a : BusAddress) (bs : List Byte) (q : List Status) (d : Nat) (s : State) :
    AgreeUpToStatus (finishWrite (memWrite a bs s)) (finishWrite (memWrite a bs (s.withStatuses q d))) := by
  obtain ⟨hc, hw⟩ | ⟨k, hk, hlt, hw⟩ := memWrite_cases a bs s
  · rw [hw, memWrite_complete (s := s.withStatuses q d) hc, finishWrite_some, finishWrite_some]
    refine ⟨rfl, rfl, rfl, rfl, rfl, rfl, rfl, ?_, .concat s.responses _ _⟩
    simpa [State.withStatuses] using AgreeUpToLast.concat (s.trace ++ transactionCalls a bs) _ _
  · rw [hw, memWrite_stuck (s := s.withStatuses q d) hk hlt, finishWrite_none, finishWrite_none]
    exact ⟨rfl, rfl, rfl, rfl, rfl, rfl, rfl, .refl _, .refl _⟩

theorem acceptedState_agree (i : Instr) (y : Registers) (q : List Status) (d : Nat) (s : State) :
    AgreeUpToStatus (acceptedState i y s) (acceptedState i y (s.withStatuses q d)) := by
  cases hi : busOperation i with
  | none =>
    rw [acceptedState_of_silent hi, acceptedState_of_silent hi]
    exact withStatuses_agree q d ((s.setRegs y).answer (.ok (silentResult i s)))
  | some op =>
    rw [acceptedState_of_bus hi, acceptedState_of_bus hi]
    exact finishWrite_memWrite_agree y.addr (frame s.variant s.lvl8Sel y) q d (s.setRegs y)

theorem opState_agree (i : Instr) (q : List Status) (d : Nat) (s : State) :
    AgreeUpToStatus (opState i s) (opState i (s.withStatuses q d)) := by
  cases h : writtenRegs i s.regs with
  | none =>
    rw [opState_of_refused h, opState_of_refused (s := s.withStatuses q d) h]
    exact withStatuses_agree q d (s.answer (.refused .notConstructed))
  | some y =>
    rw [opState_of_accepted h, opState_of_accepted (s := s.withStatuses q d) h]
    exact acceptedState_agree i y q d s

/-- Settles O54: the same operation among other statuses agrees but for the last event and the last response. -/
theorem statusReachesOnlyTheResponse : Obligations.StatusReachesOnlyTheResponse := by
  intro i s t q d h
  obtain rfl := eq_opState_of_exec h
  obtain ⟨hregs, hseq, hvariant, hlvl8Sel, hrequests, hindex, hcompletes, htrace, hresponses⟩ :=
    opState_agree i q d s
  exact ⟨_, exec_eq_opState i (s.withStatuses q d), hregs, hseq, hvariant, hlvl8Sel, hrequests, hindex, hcompletes,
    htrace.length, htrace.dropLast, hresponses.length, hresponses.dropLast⟩

/-! ## Operations one after the other (R65, R68) -/

/-- The state a list of operations leads to. -/
def opsState (is : List Instr) (s : State) : State :=
  is.foldl (fun t i => opState i t) s

theorem runOps_eq_opsState (is : List Instr) (s : State) : runOps is s = .next (opsState is s) := by
  induction is generalizing s with
  | nil => rfl
  | cons i is ih =>
    simp only [runOps, exec_eq_opState]
    exact ih (opState i s)

theorem opsState_concat (is : List Instr) (i : Instr) (s : State) :
    opsState (is ++ [i]) s = opState i (opsState is s) := by
  simp [opsState]

/-- R27, R65: each operation writes the registers as the one before it left them. -/
theorem opsState_regs (is : List Instr) (s : State) :
    (opsState is s).regs = is.foldl (fun regs i => writtenRegs i regs) s.regs := by
  induction is generalizing s with
  | nil => rfl
  | cons i is ih =>
    rw [List.foldl_cons, ← opState_regs]
    exact ih (opState i s)

theorem opState_historyExtends (i : Instr) (s : State) : HistoryExtends s (opState i s) :=
  exec_historyExtends (exec_eq_opState i s)

theorem HistoryExtends.trans {s t u : State} (h : HistoryExtends s t) (h' : HistoryExtends t u) :
    HistoryExtends s u :=
  ⟨h.trace.trans h'.trace, h.responses.trans h'.responses, h'.variant.trans h.variant, h'.lvl8Sel.trans h.lvl8Sel⟩

theorem opsState_historyExtends (is : List Instr) (s : State) : HistoryExtends s (opsState is s) := by
  induction is generalizing s with
  | nil => rfl
  | cons i is ih => exact (opState_historyExtends i s).trans (ih (opState i s))

@[simp] theorem opsState_variant (is : List Instr) (s : State) : (opsState is s).variant = s.variant :=
  (opsState_historyExtends is s).variant

@[simp] theorem opsState_lvl8Sel (is : List Instr) (s : State) : (opsState is s).lvl8Sel = s.lvl8Sel :=
  (opsState_historyExtends is s).lvl8Sel

@[refl] theorem NothingSent.refl (s : State) : NothingSent s s := ⟨rfl, rfl, rfl, rfl⟩

theorem NothingSent.trans {s t u : State} (h : NothingSent s t) (h' : NothingSent t u) : NothingSent s u :=
  ⟨h'.trace.trans h.trace, h'.drawn.trans h.drawn, h'.completes.trans h.completes, h'.script.trans h.script⟩

/-- The transport has still the same status to give. -/
theorem NothingSent.status {s t : State} (h : NothingSent s t) : t.status = s.status := by
  simp only [State.status, h.script, h.drawn]

theorem opsState_nothingSent {is : List Instr} (his : ∀ i ∈ is, busOperation i = none) (s : State) :
    NothingSent s (opsState is s) := by
  induction is generalizing s with
  | nil => rfl
  | cons i is ih =>
    obtain ⟨hi, his⟩ := List.forall_mem_cons.1 his
    exact (opState_nothingSent hi s).trans (ih his (opState i s))

/-- R68: after operations that touch no bus, a full write sends the frame of the registers as they have left them. -/
theorem opsState_then_write_trace {is : List Instr} (his : ∀ j ∈ is, busOperation j = none) {i : Instr} {op : BusOp}
    {y : Registers} {s : State} (hi : busOperation i = some op)
    (hy : (is ++ [i]).foldl (fun regs j => writtenRegs j regs) s.regs = some y) (hc : s.completes = none) :
    (opsState (is ++ [i]) s).trace = s.trace ++
      (transactionCalls y.addr (frame s.variant s.lvl8Sel y) ++ [.endTransaction s.status]) := by
  have hsent := opsState_nothingSent his s
  have hwritten : writtenRegs i (opsState is s).regs = some y := by
    rw [← hy, List.foldl_concat, opsState_regs]
  have hcan : (opsState is s).canComplete (frameLength (opsState is s).variant + 2) = true :=
    canComplete_none _ (hsent.completes.trans hc)
  simp [opsState_concat, opState_of_completed_write hi hwritten hcan, hsent.trace, hsent.status]

/-- Settles O56: the three setters touch no bus, and the frame sent after them holds every register they write. -/
theorem settersReachTheNextFrame : Obligations.SettersReachTheNextFrame := by
  intro s x g r p hx hc
  have hwritten : [.setPowerMode p, .setGain g, .setVoltageReference r, .initializeOp].foldl
      (fun regs i => writtenRegs i regs) s.regs = some { x with pd := p, gain := g, ref := r } := by
    rw [hx]
    rfl
  have hsilent : ∀ i ∈ [.setPowerMode p, .setGain g, .setVoltageReference r], busOperation i = none := by
    simp [busOperation]
  exact ⟨_, runOps_eq_opsState _ s, opsState_then_write_trace hsilent (i := .initializeOp) rfl hwritten hc⟩

end Sys2Proof.Machine
end

section
/-! PROOFS. The statements on encoding (30_encoding.md): the request word (R96 to R99, R102). -/

namespace Sys2Proof

/-! ## Words cut into fields -/

theorem append_inj_iff {m n : Nat} {x x' : BitVec m} {y y' : BitVec n} :
    x ++ y = x' ++ y' ↔ x = x' ∧ y = y' := by
  constructor
  · intro h
    have hhigh := congrArg (BitVec.extractLsb' n m) h
    have hlow := congrArg (BitVec.extractLsb' 0 n) h
    simp only [BitVec.extractLsb'_append_eq_left, BitVec.extractLsb'_append_eq_right] at hhigh hlow
    exact ⟨hhigh, hlow⟩
  · rintro ⟨rfl, rfl⟩
    rfl

/-- A slice of a word is two fields side by side exactly when each field is its own slice. -/
theorem extractLsb'_eq_append_iff {m n k len : Nat} {x : BitVec m} {y : BitVec n} {w : BitVec len} :
    w.extractLsb' k (m + n) = x ++ y ↔ w.extractLsb' (k + n) m = x ∧ w.extractLsb' k n = y := by
  rw [← BitVec.extractLsb'_append_extractLsb'_eq_extractLsb' rfl, append_inj_iff]

/-- The same for a whole word. -/
theorem append_eq_iff {m n : Nat} {x : BitVec m} {y : BitVec n} {w : BitVec (m + n)} :
    x ++ y = w ↔ w.extractLsb' n m = x ∧ w.extractLsb' 0 n = y := by
  conv_lhs => rw [← BitVec.extractLsb'_eq_self (x := w)]
  rw [eq_comm, extractLsb'_eq_append_iff, Nat.zero_add]

/-- A request word of an opcode, mbz bits and one operand (R97, formats `E1`, `E2` and `L`). -/
theorem opcode_mbz_operand_eq_iff {m n : Nat} {c : BitVec 4} {z : BitVec m} {y : BitVec n} {w : BitVec (4 + m + n)} :
    c ++ z ++ y = w ↔ w.extractLsb' (n + m) 4 = c ∧ w.extractLsb' n m = z ∧ w.extractLsb' 0 n = y := by
  rw [append_eq_iff, extractLsb'_eq_append_iff, and_assoc]

/-- R97, format `K`. -/
theorem encode_construct_eq_iff {a : BusAddress} {r : ReferenceMode} {g : Gain} {p : PowerMode} {m : MemoryTarget}
    {l : Level} {w : RequestWord} : encode (.construct a r g p m l) = w ↔
      w.extractLsb' 32 4 = 0x1#4 ∧ w.extractLsb' 31 1 = 0#1 ∧ w.extractLsb' 24 7 = a ∧
      w.extractLsb' 22 2 = ordinalOfTarget m ∧ w.extractLsb' 20 2 = ordinalOfReference r ∧
      w.extractLsb' 18 2 = ordinalOfPower p ∧ w.extractLsb' 17 1 = ordinalOfGain g ∧
      w.extractLsb' 16 1 = 0#1 ∧ w.extractLsb' 0 16 = l := by
  unfold encode
  rw [append_eq_iff]
  simp only [extractLsb'_eq_append_iff, and_assoc]

/-! ## Opcodes (R96) and ordinals (R98) -/

/-- R96: the opcode value of an operation. -/
def opcodeBits : Opcode → BitVec 4
  | .construct => 0x1#4
  | .initializeOp => 0x2#4
  | .setGain => 0x3#4
  | .setVoltageReference => 0x4#4
  | .setPowerMode => 0x5#4
  | .setOutputLevelVolatileFast => 0x6#4
  | .downloadParameters => 0x7#4

theorem opcodeOfBits_eq_some_iff {b : BitVec 4} {op : Opcode} : opcodeOfBits b = some op ↔ b = opcodeBits op := by
  revert b
  cases op <;> decide

theorem opcodeOfBits_eq_none_iff {b : BitVec 4} : opcodeOfBits b = none ↔ b = 0#4 ∨ 8 ≤ b.toNat := by
  revert b
  decide

theorem opcodeBits_inj {op op' : Opcode} : opcodeBits op = opcodeBits op' ↔ op = op' := by
  rw [← opcodeOfBits_eq_some_iff, opcodeOfBits_eq_some_iff.2 rfl, Option.some_inj]

@[simp] theorem ordinalOfGain_gainOfOrdinal (b : BitVec 1) : ordinalOfGain (gainOfOrdinal b) = b := by
  revert b
  decide

@[simp] theorem ordinalOfPower_powerOfOrdinal (b : BitVec 2) : ordinalOfPower (powerOfOrdinal b) = b := by
  revert b
  decide

@[simp] theorem ordinalOfTarget_targetOfOrdinal (b : BitVec 2) : ordinalOfTarget (targetOfOrdinal b) = b := by
  revert b
  decide

theorem referenceOfOrdinal_eq_some_iff {b : BitVec 2} {r : ReferenceMode} :
    referenceOfOrdinal b = some r ↔ b = ordinalOfReference r := by
  revert b
  cases r <;> decide

theorem referenceOfOrdinal_eq_none_iff {b : BitVec 2} : referenceOfOrdinal b = none ↔ b = 3#2 := by
  revert b
  decide

/-! ## Decoding inverts encoding (R102) -/

/-- A word whose opcode names an operation is decoded by the format of that opcode. -/
theorem decode_of_opcode {w : RequestWord} {op : Opcode} (h : w.extractLsb' 32 4 = opcodeBits op) :
    decode w = if mbzBitsZero op w then decodeFields op w else .error .mbzBitSet := by
  simp [decode, opcodeOfBits_eq_some_iff.2 h]

theorem decode_eq_ok_iff {w : RequestWord} {i : Instr} :
    decode w = .ok i ↔
      ∃ op, w.extractLsb' 32 4 = opcodeBits op ∧ mbzBitsZero op w = true ∧ decodeFields op w = .ok i := by
  cases h : opcodeOfBits (w.extractLsb' 32 4) with
  | none => simp [decode, h, ← opcodeOfBits_eq_some_iff]
  | some op =>
    rw [opcodeOfBits_eq_some_iff] at h
    simp [decode_of_opcode h, h, opcodeBits_inj, ite_eq_iff]

theorem decode_encode (i : Instr) : decode (encode i) = .ok i := by
  cases i with
  | construct a r g p m l =>
    simp [decode_of_opcode (op := .construct) (construct_op a r g p m l), mbzBitsZero, construct_mbz31,
      construct_mbz16, decodeFields, construct_addr, construct_memt, construct_ref, construct_pd, construct_gain,
      construct_level]
  | initializeOp => rfl
  | setGain g => cases g <;> rfl
  | setVoltageReference r => cases r <;> rfl
  | setPowerMode p => cases p <;> rfl
  | setOutputLevelVolatileFast l =>
    simp [decode_of_opcode (op := .setOutputLevelVolatileFast) (level_op l), mbzBitsZero, level_mbz, decodeFields,
      level_field]
  | downloadParameters m => cases m <;> rfl

/-- Settles O15: each field of the word is read back from its place, and its ordinal names the value. -/
theorem decodeOfEncode : Obligations.DecodeOfEncode := decode_encode

/-- A word with a known opcode and mbz bits 0 is the opcode, zeros, and the ordinals of what its fields name. -/
theorem encode_of_decodeFields {w : RequestWord} {op : Opcode} {i : Instr} (hop : w.extractLsb' 32 4 = opcodeBits op)
    (hmbz : mbzBitsZero op w = true) (h : decodeFields op w = .ok i) : encode i = w := by
  cases op with
  | construct =>
    simp only [mbzBitsZero, Bool.and_eq_true, beq_iff_eq] at hmbz
    obtain ⟨hmbz31, hmbz16⟩ := hmbz
    cases hr : referenceOfOrdinal (w.extractLsb' 20 2) with
    | none => simp [decodeFields, hr] at h
    | some r =>
      obtain rfl : _ = i := by simpa [decodeFields, hr] using h
      rw [referenceOfOrdinal_eq_some_iff] at hr
      simp [encode_construct_eq_iff, hop, opcodeBits, hmbz31, hmbz16, hr]
  | initializeOp =>
    obtain rfl := Except.ok.inj h
    exact append_eq_iff.2 ⟨hop, eq_of_beq hmbz⟩
  | setGain =>
    obtain rfl := Except.ok.inj h
    exact opcode_mbz_operand_eq_iff.2 ⟨hop, eq_of_beq hmbz, (ordinalOfGain_gainOfOrdinal _).symm⟩
  | setVoltageReference =>
    cases hr : referenceOfOrdinal (w.extractLsb' 0 2) with
    | none => simp [decodeFields, hr] at h
    | some r =>
      obtain rfl : _ = i := by simpa [decodeFields, hr] using h
      exact opcode_mbz_operand_eq_iff.2 ⟨hop, eq_of_beq hmbz, referenceOfOrdinal_eq_some_iff.1 hr⟩
  | setPowerMode =>
    obtain rfl := Except.ok.inj h
    exact opcode_mbz_operand_eq_iff.2 ⟨hop, eq_of_beq hmbz, (ordinalOfPower_powerOfOrdinal _).symm⟩
  | setOutputLevelVolatileFast =>
    obtain rfl := Except.ok.inj h
    exact opcode_mbz_operand_eq_iff.2 ⟨hop, eq_of_beq hmbz, rfl⟩
  | downloadParameters =>
    obtain rfl := Except.ok.inj h
    exact opcode_mbz_operand_eq_iff.2 ⟨hop, eq_of_beq hmbz, (ordinalOfTarget_targetOfOrdinal _).symm⟩

/-- Settles O16: a word that decodes has a named opcode, mbz bits 0, and fields that name the operands. -/
theorem encodeOfDecode : Obligations.EncodeOfDecode := by
  intro w i h
  obtain ⟨op, hop, hmbz, hfields⟩ := decode_eq_ok_iff.1 h
  exact encode_of_decodeFields hop hmbz hfields

/-! ## Legal words (R99): the decoder against the rows of the opcode table -/

/-- Not R99 (c), by opcode: the formats that have a `ref` field do not hold ordinal 3 in it. -/
def refFieldNamed : Opcode → RequestWord → Prop
  | .construct, w => w.extractLsb' 20 2 ≠ 3#2
  | .setVoltageReference, w => w.extractLsb' 0 2 ≠ 3#2
  | _, _ => True

theorem exists_decodeFields_ok_iff {op : Opcode} {w : RequestWord} :
    (∃ i, decodeFields op w = .ok i) ↔ refFieldNamed op w := by
  cases op with
  | construct =>
    rw [refFieldNamed, ne_eq, ← referenceOfOrdinal_eq_none_iff]
    cases hr : referenceOfOrdinal (w.extractLsb' 20 2) <;> simp [decodeFields, hr]
  | setVoltageReference =>
    rw [refFieldNamed, ne_eq, ← referenceOfOrdinal_eq_none_iff]
    cases hr : referenceOfOrdinal (w.extractLsb' 0 2) <;> simp [decodeFields, hr]
  | initializeOp => simp [decodeFields, refFieldNamed]
  | setGain => simp [decodeFields, refFieldNamed]
  | setPowerMode => simp [decodeFields, refFieldNamed]
  | setOutputLevelVolatileFast => simp [decodeFields, refFieldNamed]
  | downloadParameters => simp [decodeFields, refFieldNamed]

theorem exists_decode_ok_iff {w : RequestWord} :
    (∃ i, decode w = .ok i) ↔
      ∃ op, w.extractLsb' 32 4 = opcodeBits op ∧ mbzBitsZero op w = true ∧ refFieldNamed op w := by
  simp only [decode_eq_ok_iff, ← exists_decodeFields_ok_iff]
  rw [exists_comm]
  simp only [exists_and_left]

/-- The row of the opcode table of an operation. -/
def Opcode.row : Opcode → TableRow
  | .construct => opcodeTable[0]
  | .initializeOp => opcodeTable[1]
  | .setGain => opcodeTable[2]
  | .setVoltageReference => opcodeTable[3]
  | .setPowerMode => opcodeTable[4]
  | .setOutputLevelVolatileFast => opcodeTable[5]
  | .downloadParameters => opcodeTable[6]

theorem mem_opcodeTable_iff {row : TableRow} : row ∈ opcodeTable ↔ ∃ op : Opcode, op.row = row := by
  constructor
  · intro h
    simp only [opcodeTable, List.mem_cons, List.not_mem_nil, or_false] at h
    rcases h with rfl | rfl | rfl | rfl | rfl | rfl | rfl
    exacts [⟨.construct, rfl⟩, ⟨.initializeOp, rfl⟩, ⟨.setGain, rfl⟩, ⟨.setVoltageReference, rfl⟩,
      ⟨.setPowerMode, rfl⟩, ⟨.setOutputLevelVolatileFast, rfl⟩, ⟨.downloadParameters, rfl⟩]
  · rintro ⟨op, rfl⟩
    cases op <;> exact List.getElem_mem _

theorem opcode_row (op : Opcode) : op.row.pattern.extractLsb' 32 4 = opcodeBits op := by
  cases op <;> rfl

/-- The fixed bits of a format of an opcode, mbz bits and one operand. -/
theorem and_mask_eq_iff_of_operand {m n : Nat} {c : BitVec 4} {w mask pattern : BitVec (4 + m + n)}
    (hmask : BitVec.allOnes 4 ++ BitVec.allOnes m ++ 0#n = mask) (hpattern : c ++ 0#m ++ 0#n = pattern) :
    w &&& mask = pattern ↔ w.extractLsb' (n + m) 4 = c ∧ (w.extractLsb' n m == 0#m) = true := by
  obtain ⟨hopcode, hmbz, hoperand⟩ := opcode_mbz_operand_eq_iff.1 hmask
  rw [eq_comm, ← hpattern, opcode_mbz_operand_eq_iff]
  simp only [BitVec.extractLsb'_and, hopcode, hmbz, hoperand, BitVec.and_allOnes, BitVec.and_zero, and_true,
    beq_iff_eq]

/-- Format `K` with its two mbz bits set off. -/
theorem construct_mbz_eq_iff {c : BitVec 4} {z31 z16 : BitVec 1} {x : BitVec 14} {l : Level} {w : RequestWord} :
    c ++ z31 ++ x ++ z16 ++ l = w ↔
      w.extractLsb' 32 4 = c ∧ w.extractLsb' 31 1 = z31 ∧ w.extractLsb' 17 14 = x ∧ w.extractLsb' 16 1 = z16 ∧
        w.extractLsb' 0 16 = l := by
  rw [append_eq_iff]
  simp only [extractLsb'_eq_append_iff, and_assoc]

/-- The fixed bits of format `K`: the opcode and the bits 31 and 16. -/
theorem and_construct_mask_eq_iff {w : RequestWord} :
    w &&& 0xF80010000#36 = 0x100000000#36 ↔
      w.extractLsb' 32 4 = 0x1#4 ∧ w.extractLsb' 31 1 = 0#1 ∧ w.extractLsb' 16 1 = 0#1 := by
  have hmask : BitVec.allOnes 4 ++ BitVec.allOnes 1 ++ 0#14 ++ BitVec.allOnes 1 ++ 0#16 = 0xF80010000#36 := rfl
  have hpattern : 0x1#4 ++ 0#1 ++ 0#14 ++ 0#1 ++ 0#16 = 0x100000000#36 := rfl
  obtain ⟨hopcode, h31, hfields, h16, hlevel⟩ := construct_mbz_eq_iff.1 hmask
  rw [eq_comm, ← hpattern, construct_mbz_eq_iff]
  simp only [BitVec.extractLsb'_and, hopcode, h31, hfields, h16, hlevel, BitVec.and_allOnes, BitVec.and_zero,
    true_and, and_true]

/-- A word has the fixed bits of a row exactly when it has the opcode and its mbz bits are 0. -/
theorem and_row_mask_eq_iff {op : Opcode} {w : RequestWord} :
    w &&& op.row.mask = op.row.pattern ↔ w.extractLsb' 32 4 = opcodeBits op ∧ mbzBitsZero op w = true := by
  cases op with
  | construct =>
    rw [mbzBitsZero, Bool.and_eq_true, beq_iff_eq, beq_iff_eq]
    exact and_construct_mask_eq_iff
  | initializeOp => exact and_mask_eq_iff_of_operand (m := 32) (n := 0) rfl rfl
  | setGain => exact and_mask_eq_iff_of_operand (m := 31) (n := 1) rfl rfl
  | setVoltageReference => exact and_mask_eq_iff_of_operand (m := 30) (n := 2) rfl rfl
  | setPowerMode => exact and_mask_eq_iff_of_operand (m := 30) (n := 2) rfl rfl
  | setOutputLevelVolatileFast => exact and_mask_eq_iff_of_operand (m := 16) (n := 16) rfl rfl
  | downloadParameters => exact and_mask_eq_iff_of_operand (m := 30) (n := 2) rfl rfl

theorem opcodeNamed_iff {w : RequestWord} : opcodeNamed w = true ↔ ∃ op, opcodeBits op = w.extractLsb' 32 4 := by
  simp only [opcodeNamed, List.any_eq_true, beq_iff_eq, mem_opcodeTable_iff, exists_exists_eq_and, opcodeField,
    opcode_row]

theorem mbzClear_iff {w : RequestWord} :
    mbzClear w = true ↔ ∃ op, w.extractLsb' 32 4 = opcodeBits op ∧ mbzBitsZero op w = true := by
  simp only [mbzClear, List.any_eq_true, beq_iff_eq, mem_opcodeTable_iff, exists_exists_eq_and, and_row_mask_eq_iff]

theorem refNamed_iff {w : RequestWord} :
    refNamed w = true ↔ ∀ op, opcodeBits op = w.extractLsb' 32 4 → refFieldNamed op w := by
  simp only [refNamed, List.all_eq_true, mem_opcodeTable_iff, forall_exists_index, forall_apply_eq_imp_iff,
    opcodeField, opcode_row, Bool.or_eq_true, bne_iff_ne, ne_eq, ← imp_iff_not_or]
  refine forall_congr' fun op => imp_congr_right fun _ => ?_
  cases op <;> simp [Opcode.row, opcodeTable, refFieldNamed]

theorem legalWord_iff {w : RequestWord} :
    legalWord w = true ↔
      ∃ op, w.extractLsb' 32 4 = opcodeBits op ∧ mbzBitsZero op w = true ∧ refFieldNamed op w := by
  simp only [legalWord, Bool.and_eq_true, opcodeNamed_iff, mbzClear_iff, refNamed_iff]
  constructor
  · rintro ⟨⟨-, op, hop, hmbz⟩, href⟩
    exact ⟨op, hop, hmbz, href op hop.symm⟩
  · rintro ⟨op, hop, hmbz, href⟩
    refine ⟨⟨⟨op, hop.symm⟩, op, hop, hmbz⟩, fun op' hop' => ?_⟩
    obtain rfl := opcodeBits_inj.1 (hop'.trans hop)
    exact href

/-- Settles O17: the decoder's opcodes, mbz bits and `ref` fields are those of the rows. -/
theorem decodesExactlyTheWordsOfTheTable : Obligations.DecodesExactlyTheWordsOfTheTable := fun _ =>
  exists_decode_ok_iff.trans legalWord_iff.symm

/-! ## Illegal words (R99) -/

theorem exists_decode_error_iff {w : RequestWord} : (∃ e, decode w = .error e) ↔ ¬∃ i, decode w = .ok i := by
  cases decode w <;> simp

theorem exists_decode_error_iff_of_opcode {w : RequestWord} {op : Opcode} (hop : w.extractLsb' 32 4 = opcodeBits op) :
    (∃ e, decode w = .error e) ↔ mbzBitsZero op w = false ∨ ¬refFieldNamed op w := by
  rw [exists_decode_error_iff, exists_decode_ok_iff]
  simp [hop, opcodeBits_inj, imp_iff_not_or]

/-- Settles O18: an opcode without an operation is (a); each other opcode leaves its own mbz bits (b) and its `ref` field
(c). -/
theorem illegalWordsAreThoseOfTheRule : Obligations.IllegalWordsAreThoseOfTheRule := by
  intro w
  have hbit (b : BitVec 1) : b = 1#1 ↔ b ≠ 0#1 := by
    revert b
    decide
  cases hop : opcodeOfBits (w.extractLsb' 32 4) with
  | none =>
    have herror : ∃ e, decode w = .error e := ⟨.noSuchOpcode, by simp [decode, hop]⟩
    exact iff_of_true herror (.inl (opcodeOfBits_eq_none_iff.1 hop))
  | some op =>
    rw [opcodeOfBits_eq_some_iff] at hop
    rw [exists_decode_error_iff_of_opcode hop, hop]
    cases op <;> simp [opcodeBits, mbzBitsZero, refFieldNamed, hbit, imp_iff_not_or]
end Sys2Proof
end

section
/-! PROOFS. The statements on encoding (30_encoding.md): the command byte (R81 to R88). -/

namespace Sys2Proof.Machine

/-! ## The codes of the fields (R81 to R84) -/

theorem decRef_eq_some_iff {b : BitVec 2} {r : ReferenceMode} : decRef b = some r ↔ encRef r = b := by
  revert b
  cases r <;> decide

theorem decMemT_eq_some_iff {b : BitVec 3} {m : MemoryTarget} : decMemT b = some m ↔ encMemT m = b := by
  revert b
  cases m <;> decide

theorem decPd_eq_iff {b : BitVec 2} {p : PowerMode} : decPd b = p ↔ encPd p = b := by
  revert b
  cases p <;> decide

theorem decGain_eq_iff {b : BitVec 1} {g : Gain} : decGain b = g ↔ encGain g = b := by
  revert b
  cases g <;> decide

/-- R81: code 1 alone names no value. -/
theorem decRef_eq_none_iff {b : BitVec 2} : decRef b = none ↔ b = 1#2 := by
  revert b
  decide

/-- R84: the codes 1, 5, 6 and 7 name no value. -/
theorem decMemT_eq_none_iff {b : BitVec 3} : decMemT b = none ↔ b = 1#3 ∨ b = 5#3 ∨ b = 6#3 ∨ b = 7#3 := by
  revert b
  decide

theorem exists_encRef_iff {b : BitVec 2} : (∃ r, encRef r = b) ↔ b = 0#2 ∨ b = 2#2 ∨ b = 3#2 := by
  simp only [← decRef_eq_some_iff, ← Option.isSome_iff_exists]
  revert b
  decide

theorem exists_encMemT_iff {b : BitVec 3} : (∃ m, encMemT m = b) ↔ b = 0#3 ∨ b = 2#3 ∨ b = 3#3 ∨ b = 4#3 := by
  simp only [← decMemT_eq_some_iff, ← Option.isSome_iff_exists]
  revert b
  decide

/-- R83: every code of the power-down field is in use. -/
theorem exists_encPd (b : BitVec 2) : ∃ p, encPd p = b := ⟨decPd b, decPd_eq_iff.1 rfl⟩

/-- R82: every code of the gain field is in use. -/
theorem exists_encGain (b : BitVec 1) : ∃ g, encGain g = b := ⟨decGain b, decGain_eq_iff.1 rfl⟩

/-! ## The four fields in their places (R85) -/

/-- A byte is the command byte of four settings exactly when each field holds the code of its setting. -/
theorem encodeCommand_eq_iff {m : MemoryTarget} {r : ReferenceMode} {p : PowerMode} {g : Gain} {b : Byte} :
    encodeCommand m r p g = b ↔
      encMemT m = b.extractLsb' 5 3 ∧ encRef r = b.extractLsb' 3 2 ∧ encPd p = b.extractLsb' 1 2 ∧
        encGain g = b.extractLsb' 0 1 := by
  unfold encodeCommand
  rw [append_eq_iff]
  simp only [extractLsb'_eq_append_iff, and_assoc, eq_comm]

/-- R81 to R84: the places of the four fields in `CMD`. -/
theorem commandByte_fields (x : Registers) :
    encMemT x.memt = (commandByte x).extractLsb' 5 3 ∧ encRef x.ref = (commandByte x).extractLsb' 3 2 ∧
      encPd x.pd = (commandByte x).extractLsb' 1 2 ∧ encGain x.gain = (commandByte x).extractLsb' 0 1 :=
  encodeCommand_eq_iff.1 rfl

theorem encRef_ne_one (r : ReferenceMode) : encRef r ≠ 1#2 := by
  cases r <;> decide

/-- Settles O1: the codes by value, the place in `CMD` as one of its four fields. -/
theorem referenceFieldOfCommandByte : Obligations.ReferenceFieldOfCommandByte :=
  ⟨rfl, rfl, rfl, encRef_ne_one, fun x =>
    have ⟨_, href, _, _⟩ := commandByte_fields x
    href.symm⟩

/-- Settles O2: `EncGain` by value, and its bit is the lowest of the four fields. -/
theorem gainFieldOfCommandByte : Obligations.GainFieldOfCommandByte :=
  ⟨rfl, rfl, fun x =>
    have ⟨_, _, _, hgain⟩ := commandByte_fields x
    hgain.symm⟩

/-- Settles O3: `EncPd` by value, and its bits stand between those of the gain and of the reference. -/
theorem powerDownFieldOfCommandByte : Obligations.PowerDownFieldOfCommandByte :=
  ⟨rfl, rfl, rfl, rfl, fun x =>
    have ⟨_, _, hpd, _⟩ := commandByte_fields x
    hpd.symm⟩

theorem encMemT_ne_unused (m : MemoryTarget) :
    encMemT m ≠ 1#3 ∧ encMemT m ≠ 5#3 ∧ encMemT m ≠ 6#3 ∧ encMemT m ≠ 7#3 := by
  cases m <;> decide

/-- Settles O4: `EncMemT` by value, and its bits are the upper three of `CMD`. -/
theorem memoryTargetFieldOfCommandByte : Obligations.MemoryTargetFieldOfCommandByte :=
  ⟨rfl, rfl, rfl, rfl, encMemT_ne_unused, fun x =>
    have ⟨hmemt, _, _, _⟩ := commandByte_fields x
    hmemt.symm⟩

theorem toNat_append_eq_add {m n : Nat} (x : BitVec m) (y : BitVec n) :
    (x ++ y).toNat = 2 ^ n * x.toNat + y.toNat := by
  rw [BitVec.toNat_append, ← Nat.shiftLeft_add_eq_or_of_lt y.isLt, Nat.shiftLeft_eq, Nat.mul_comm]

theorem encodeCommand_toNat (m : MemoryTarget) (r : ReferenceMode) (p : PowerMode) (g : Gain) :
    (encodeCommand m r p g).toNat =
      32 * (encMemT m).toNat + 8 * (encRef r).toNat + 2 * (encPd p).toNat + (encGain g).toNat := by
  simp only [encodeCommand, toNat_append_eq_add]
  omega

/-- Settles O5: a concatenation weighs each field by the power of two of its place. -/
theorem commandByteIsTheFourFields : Obligations.CommandByteIsTheFourFields :=
  ⟨fun _ _ _ _ => rfl, encodeCommand_toNat, fun _ => rfl, rfl⟩

/-! ## `Decode`, the partial inverse of `Encode` (R86 to R88) -/

theorem decodeCommand_eq_some_iff {m : MemoryTarget} {r : ReferenceMode} {p : PowerMode} {g : Gain} {b : Byte} :
    decodeCommand b = some (m, r, p, g) ↔ encodeCommand m r p g = b := by
  rw [encodeCommand_eq_iff, ← decMemT_eq_some_iff, ← decRef_eq_some_iff, ← decPd_eq_iff, ← decGain_eq_iff]
  cases hm : decMemT (b.extractLsb' 5 3) <;> cases hr : decRef (b.extractLsb' 3 2) <;>
    simp [decodeCommand, hm, hr]

theorem decodeCommand_encodeCommand (m : MemoryTarget) (r : ReferenceMode) (p : PowerMode) (g : Gain) :
    decodeCommand (encodeCommand m r p g) = some (m, r, p, g) :=
  decodeCommand_eq_some_iff.2 rfl

theorem encodeCommand_inj {m m' : MemoryTarget} {r r' : ReferenceMode} {p p' : PowerMode} {g g' : Gain}
    (h : encodeCommand m r p g = encodeCommand m' r' p' g') : m = m' ∧ r = r' ∧ p = p' ∧ g = g' := by
  simpa [decodeCommand_encodeCommand] using congrArg decodeCommand h

/-- A byte is a command byte exactly when each of its four fields is a code in use. -/
theorem exists_encodeCommand_iff {b : Byte} :
    (∃ m r p g, encodeCommand m r p g = b) ↔
      (∃ m, encMemT m = b.extractLsb' 5 3) ∧ (∃ r, encRef r = b.extractLsb' 3 2) ∧
        (∃ p, encPd p = b.extractLsb' 1 2) ∧ ∃ g, encGain g = b.extractLsb' 0 1 := by
  simp only [encodeCommand_eq_iff, exists_and_left, exists_and_right]

theorem decodeCommand_eq_none_iff {b : Byte} :
    decodeCommand b = none ↔ ¬∃ m r p g, encodeCommand m r p g = b := by
  simp [← decodeCommand_eq_some_iff, Option.eq_none_iff_forall_ne_some]

/-- Settles O8: `Decode` gives four settings exactly where `Encode` of them is the byte. -/
theorem decodeCommandInvertsEncode : Obligations.DecodeCommandInvertsEncode :=
  ⟨decodeCommand_encodeCommand, fun _ _ _ _ _ => decodeCommand_eq_some_iff.1,
    fun _ => decodeCommand_eq_none_iff.trans (not_congr exists_encodeCommand_iff)⟩

theorem exists_encodeCommand_iff_codes {b : Byte} :
    (∃ m r p g, encodeCommand m r p g = b) ↔
      (b.extractLsb' 5 3 = 0#3 ∨ b.extractLsb' 5 3 = 2#3 ∨ b.extractLsb' 5 3 = 3#3 ∨ b.extractLsb' 5 3 = 4#3) ∧
        (b.extractLsb' 3 2 = 0#2 ∨ b.extractLsb' 3 2 = 2#2 ∨ b.extractLsb' 3 2 = 3#2) := by
  rw [exists_encodeCommand_iff, exists_encMemT_iff, exists_encRef_iff]
  simp only [exists_encPd, exists_encGain, and_true]

theorem count_commandBytes :
    ((List.range 256).filter fun k => (decodeCommand (BitVec.ofNat 8 k)).isSome).length = 96 := by
  rfl

/-- Settles O6: `Decode` undoes `Encode`, and only the two upper fields have codes that name no value. -/
theorem encodeIsInjectiveWithNinetySixBytes : Obligations.EncodeIsInjectiveWithNinetySixBytes :=
  ⟨fun _ _ _ _ _ _ _ _ => encodeCommand_inj, fun _ => exists_encodeCommand_iff_codes, count_commandBytes⟩

theorem decodeCommand_eq_none_iff_codes {b : Byte} :
    decodeCommand b = none ↔
      b.extractLsb' 5 3 = 1#3 ∨ b.extractLsb' 5 3 = 5#3 ∨ b.extractLsb' 5 3 = 6#3 ∨ b.extractLsb' 5 3 = 7#3 ∨
        b.extractLsb' 3 2 = 1#2 := by
  have hnone : decodeCommand b = none ↔ decMemT (b.extractLsb' 5 3) = none ∨ decRef (b.extractLsb' 3 2) = none := by
    cases hm : decMemT (b.extractLsb' 5 3) <;> cases hr : decRef (b.extractLsb' 3 2) <;>
      simp [decodeCommand, hm, hr]
  rw [hnone, decMemT_eq_none_iff, decRef_eq_none_iff]
  simp only [or_assoc]

theorem count_otherBytes :
    ((List.range 256).filter fun k => (decodeCommand (BitVec.ofNat 8 k)).isNone).length = 160 := by
  have h := List.length_eq_length_filter_add (l := List.range 256) fun k => (decodeCommand (BitVec.ofNat 8 k)).isSome
  simp only [List.length_range, count_commandBytes, Option.not_isSome] at h
  omega

theorem decodeCommand_commandByte (x : Registers) :
    decodeCommand (commandByte x) = some (x.memt, x.ref, x.pd, x.gain) :=
  decodeCommand_encodeCommand _ _ _ _

/-- Settles O7: the first byte of a frame is `CMD`, which `Decode` reads. -/
theorem meaninglessBytesNeverLeadAFrame : Obligations.MeaninglessBytesNeverLeadAFrame := by
  refine ⟨fun _ => decodeCommand_eq_none_iff_codes, count_otherBytes, fun v sel x b bs h => ?_⟩
  obtain ⟨rfl, -⟩ := List.cons_eq_cons.1 h
  simp [decodeCommand_commandByte]

end Sys2Proof.Machine
end

section
/-! PROOFS. The statements on encoding (30_encoding.md): sample words (R102), the response word (R100), the textual form
(R101), and the request and response ports (R95). -/

namespace Sys2Proof.Machine

/-! ## Words and lines written out (R100 to R102) -/

/-- Settles O19: six words, decoded. -/
theorem sampleWordsDecode : Obligations.SampleWordsDecode := ⟨rfl, rfl, rfl, rfl, rfl, rfl⟩

/-- R100: the four fields of a response word. -/
theorem word_fields (r : Response) :
    r.word.extractLsb' 11 1 = r.refusedBit ∧ r.word.extractLsb' 10 1 = r.okBit ∧
      r.word.extractLsb' 8 2 = r.reasonBits ∧ r.word.extractLsb' 0 8 = r.rbyteBits := by
  have hword : r.refusedBit ++ r.okBit ++ r.reasonBits ++ r.rbyteBits = r.word := rfl
  rw [append_eq_iff] at hword
  simpa only [extractLsb'_eq_append_iff, and_assoc] using hword

/-- Settles O20: an `ok` sets bit 10 and carries its byte, the other words by value. -/
theorem responseWordLayout : Obligations.ResponseWordLayout :=
  ⟨fun b => word_fields (.ok b), word_busTransactionFailed, word_illegalRequest, word_notConstructed, rfl, rfl⟩

/-- Settles O21: eight lines, parsed. -/
theorem textualFormOfOperations : Obligations.TextualFormOfOperations :=
  ⟨rfl, rfl, rfl, rfl, rfl, rfl, rfl, rfl⟩

/-! ## The request port (R95) -/

theorem ofNat_toNat_mod_two_pow {n k : Nat} (h : n ≤ k) (w : BitVec n) : BitVec.ofNat n (w.toNat % 2 ^ k) = w := by
  rw [Nat.mod_eq_of_lt (w.isLt.trans_le (Nat.pow_le_pow_right Nat.two_pos h)), BitVec.ofNat_toNat, BitVec.setWidth_eq]

/-- Settles O35: the word put at the port is the word of the operation, and it decodes to it. -/
theorem fetchedWordIsRun : Obligations.FetchedWordIsRun := by
  intro s i
  have hreq : (s.withFetchWord 40 (encode i).toNat).requests = encode i :: s.requests :=
    congrArg (· :: s.requests) (ofNat_toNat_mod_two_pow (by decide) (encode i))
  exact stepRunsTheDecodedOperation _ _ _ i rfl hreq (decode_encode i)

/-! ## A busy sequencer does not read the requests (R95) -/

/-! What the sequencer does in each phase (R178, R180). -/

theorem advanceSequencer_of_configure {s : State} {op : BusOp} (h : s.seq = .configure op) :
    advanceSequencer s = .next (seqConfigure op s) := by
  simp [advanceSequencer, h]

theorem advanceSequencer_of_transmit {s : State} {idx : Nat} (h : s.seq = .transmit idx) :
    advanceSequencer s = seqTransmit idx s := by
  simp [advanceSequencer, h]

theorem advanceSequencer_of_acknowledge {s : State} (h : s.seq = .acknowledge) :
    advanceSequencer s = .next (seqAcknowledge s) := by
  simp [advanceSequencer, h]

/-- `TRANSMIT` with a call to make: it waits, or the call is completed. -/
theorem seqTransmit_of_call {s : State} {idx : Nat} {x : Registers} {call : Event} (hx : s.regs = some x)
    (hcall : (transactionCalls x.addr (frame s.variant s.lvl8Sel x))[idx]? = some call) :
    seqTransmit idx s = .next (if s.canComplete 1 then
      { (s.emit [call]).completeCalls 1 with
        seq := seqAfterCalls (frame s.variant s.lvl8Sel x).length (idx + 1) } else s) := by
  simp only [seqTransmit, hx, hcall]
  split <;> rfl

theorem seqAfterCalls_ne_idle (n k : Nat) : seqAfterCalls n k ≠ .idle := by
  unfold seqAfterCalls
  split <;> simp

/-- `s` with other words waiting at the host. -/
def State.withRequests (q : List RequestWord) (s : State) : State := { s with requests := q }

@[simp] theorem State.withRequests_canComplete (q : List RequestWord) (n : Nat) (s : State) :
    (s.withRequests q).canComplete n = s.canComplete n := rfl

/-- What a sequencer step to `t` leaves of the waiting words `q`: the head goes when the response is given. -/
def requestsAfter (t : State) (q : List RequestWord) : List RequestWord :=
  if t.seq = .idle then q.tail else q

theorem requestsAfter_of_busy {t : State} (h : t.seq ≠ .idle) (q : List RequestWord) : requestsAfter t q = q :=
  if_neg h

theorem seqConfigure_withRequests (op : BusOp) (s : State) (q : List RequestWord) :
    seqConfigure op (s.withRequests q) =
      (seqConfigure op s).withRequests (requestsAfter (seqConfigure op s) q) := by
  cases op <;> rfl

theorem seqTransmit_withRequests {idx : Nat} {s t : State} (hseq : s.seq ≠ .idle) (h : seqTransmit idx s = .next t)
    (q : List RequestWord) :
    seqTransmit idx (s.withRequests q) = .next (t.withRequests (requestsAfter t q)) := by
  obtain ⟨x, call, hx, hcall, ⟨hc, rfl⟩ | ⟨hc, rfl⟩⟩ := seqTransmit_cases h
  · rw [requestsAfter_of_busy hseq, seqTransmit_of_call (s := t.withRequests q) hx hcall]
    simp [hc]
  · rw [requestsAfter_of_busy (seqAfterCalls_ne_idle _ _), seqTransmit_of_call (s := s.withRequests q) hx hcall]
    simp only [State.withRequests_canComplete, hc]
    rfl

theorem seqAcknowledge_withRequests {s : State} (hseq : s.seq ≠ .idle) (q : List RequestWord) :
    seqAcknowledge (s.withRequests q) = (seqAcknowledge s).withRequests (requestsAfter (seqAcknowledge s) q) := by
  obtain ⟨hc, ha⟩ | ⟨hc, ha⟩ := seqAcknowledge_cases s
  · rw [ha, requestsAfter_of_busy hseq]
    simp [seqAcknowledge, hc]
  · rw [ha]
    simp only [seqAcknowledge, State.withRequests_canComplete, hc, finishWrite_some]
    rfl

/-- R95: a step outside `IDLE` does the same whatever words are waiting. -/
theorem advanceSequencer_withRequests {s t : State} (hseq : s.seq ≠ .idle) (h : advanceSequencer s = .next t)
    (q : List RequestWord) :
    advanceSequencer (s.withRequests q) = .next (t.withRequests (requestsAfter t q)) := by
  obtain ⟨hidle, -⟩ | ⟨op, hop, rfl⟩ | ⟨idx, hidx, ht⟩ | ⟨hack, rfl⟩ := advanceSequencer_cases h
  · exact absurd hidle hseq
  · rw [advanceSequencer_of_configure (s := s.withRequests q) hop, seqConfigure_withRequests]
  · rw [advanceSequencer_of_transmit (s := s.withRequests q) hidx, seqTransmit_withRequests hseq ht]
  · rw [advanceSequencer_of_acknowledge (s := s.withRequests q) hack, seqAcknowledge_withRequests hseq]

/-- Settles O37: the step with the words that are waiting is the case of its own requests. -/
theorem busySequencerTakesNoRequest : Obligations.BusySequencerTakesNoRequest := by
  intro s t q hseq h
  rw [step_of_busy hseq] at h
  have hother := advanceSequencer_withRequests hseq h
  have hown : t = t.withRequests (requestsAfter t s.requests) :=
    Host.Outcome.next.inj (h.symm.trans (hother s.requests))
  exact ⟨congrArg State.requests hown, (step_of_busy (s := s.withRequests q) hseq).trans (hother q)⟩

/-! ## One response for one request (R95, R100) -/

/-- From `s` to `t` one response has been given to the request at the port, and the phase is the same. -/
structure Answered (s t : State) : Prop where
  responses : t.responses.length = s.responses.length + 1
  index : t.index = s.index + 1
  requests : t.requests = s.requests.tail
  seq : t.seq = s.seq

/-- From `s` to `t` no response has been given, and the transport holds the sequencer outside `IDLE`. -/
structure LeftStuck (s t : State) : Prop where
  responses : t.responses = s.responses
  index : t.index = s.index
  requests : t.requests = s.requests
  seq : t.seq ≠ .idle

theorem answered_answer (r : Response) (s : State) : Answered s (s.answer r) :=
  ⟨by simp, rfl, rfl, rfl⟩

/-- A full write gives one response when its transaction ends, and none before (R175). -/
theorem finishWrite_memWrite_answered_or_leftStuck (a : BusAddress) (bs : List Byte) (s : State) :
    Answered s (finishWrite (memWrite a bs s)) ∨ LeftStuck s (finishWrite (memWrite a bs s)) := by
  obtain ⟨-, hw⟩ | ⟨k, -, -, hw⟩ := memWrite_cases a bs s
  · rw [hw, finishWrite_some]
    exact .inl ⟨by simp, rfl, rfl, rfl⟩
  · rw [hw, finishWrite_none]
    exact .inr ⟨rfl, rfl, rfl, seqAfterCalls_ne_idle _ _⟩

theorem acceptedState_answered_or_leftStuck (i : Instr) (y : Registers) (s : State) :
    Answered s (acceptedState i y s) ∨ LeftStuck s (acceptedState i y s) := by
  cases hi : busOperation i with
  | none =>
    rw [acceptedState_of_silent hi]
    exact .inl ⟨by simp, rfl, rfl, rfl⟩
  | some op =>
    rw [acceptedState_of_bus hi]
    obtain ⟨hresponses, hindex, hrequests, hseq⟩ | ⟨hresponses, hindex, hrequests, hseq⟩ :=
      finishWrite_memWrite_answered_or_leftStuck y.addr (frame s.variant s.lvl8Sel y) (s.setRegs y)
    · exact .inl ⟨hresponses, hindex, hrequests, hseq⟩
    · exact .inr ⟨hresponses, hindex, hrequests, hseq⟩

theorem opState_answered_or_leftStuck (i : Instr) (s : State) :
    Answered s (opState i s) ∨ LeftStuck s (opState i s) := by
  cases h : writtenRegs i s.regs with
  | none =>
    rw [opState_of_refused h]
    exact .inl (answered_answer _ s)
  | some y =>
    rw [opState_of_accepted h]
    exact acceptedState_answered_or_leftStuck i y s

/-- Settles O38: an operation is refused, or answers, or makes one full write; only the write can be left stuck. -/
theorem oneResponsePerOperation : Obligations.OneResponsePerOperation := by
  intro i s t h
  obtain rfl := eq_opState_of_exec h
  obtain ⟨hresponses, hindex, hrequests, hseq⟩ | ⟨hresponses, hindex, hrequests, hseq⟩ :=
    opState_answered_or_leftStuck i s
  · exact .inl ⟨hresponses, hindex, hrequests, hseq⟩
  · exact .inr ⟨hresponses, hindex, hrequests, hseq⟩

end Sys2Proof.Machine
end

section
/-! PROOFS. The statements on `construct` and `initialize` (40_construct_initialize.md R120 to R123), from the next state
of an accepted operation written out field by field. -/

namespace Sys2Proof.Machine

/-! ## The next state of an accepted operation -/

/-- R100: `ok` without a result byte. -/
theorem word_ok_zero : (Response.ok 0#8).word = 0x400#12 := rfl

/-- R27, R100: an accepted operation that sends nothing writes its registers and answers `ok` with its result byte. -/
theorem exec_of_silent {i : Instr} {y : Registers} {s : State}
    (hi : busOperation i = none) (hy : writtenRegs i s.regs = some y) :
    exec i s = .next { s with
      regs := some y
      responses := s.responses ++ [(Response.ok (silentResult i s)).word]
      requests := s.requests.tail
      index := s.index + 1 } := by
  rw [exec_eq_opState, opState_of_accepted hy, acceptedState_of_silent hi]
  rfl

/-- R171: an accepted operation that touches the bus, when the transport completes the transaction: the registers it
leaves are framed and sent, and the status decides the response. -/
theorem exec_of_completed_write {i : Instr} {op : BusOp} {y : Registers} {s : State}
    (hi : busOperation i = some op) (hy : writtenRegs i s.regs = some y)
    (hc : s.canComplete (frameLength s.variant + 2) = true) :
    exec i s = .next { s with
      regs := some y
      trace := s.trace ++ ([.beginTransaction y.addr] ++ (frame s.variant s.lvl8Sel y).map .writeByte ++
        [.endTransaction s.status])
      completes := s.completes.map fun k => k - (frameLength s.variant + 2)
      script := s.script.tail
      drawn := s.drawn + 1
      responses := s.responses ++ [if s.status = .noError then 0x400#12 else 0x000#12]
      requests := s.requests.tail
      index := s.index + 1 } := by
  rw [exec_eq_opState, opState_of_completed_write hi hy hc, State.answer, responseOfStatus_word]
  rfl

/-! ## `construct` and `initialize` (R120 to R122, R171) -/

/-- Settles O22: `construct` sends nothing, and its registers are its arguments whatever was held. -/
theorem constructLoadsAllSixRegisters : Obligations.ConstructLoadsAllSixRegisters := by
  intro s a r g p m l
  have hword : (Response.ok (silentResult (.construct a r g p m l) s)).word = 0x400#12 := word_ok_zero
  have hexec := exec_of_silent (i := .construct a r g p m l) (s := s) rfl rfl
  rw [hword] at hexec
  exact ⟨hexec, rfl⟩

/-- Settles O27: `initialize` leaves the registers held, so the frame is theirs and no register changes. -/
theorem initializeSendsTheFrame : Obligations.InitializeSendsTheFrame := by
  intro s x hx hc
  have hwritten : writtenRegs .initializeOp s.regs = some x := hx
  rw [exec_of_completed_write rfl hwritten hc, ← hx]

end Sys2Proof.Machine
end

section
/-! PROOFS. The statements on the configuration setters (41_config_setters.md R140 to R143), from what the three of them
have in common. -/

namespace Sys2Proof.Machine

/-! ## The common form of the setters (R140 to R142) -/

/-- `i` writes the registers by `f` and does nothing else but answer `ok` without a result byte. -/
structure IsSetter (i : Instr) (f : Registers → Registers) : Prop where
  silent : busOperation i = none
  written : ∀ regs, writtenRegs i regs = regs.map f
  noResult : ∀ s, silentResult i s = 0#8

theorem setGain_isSetter (g : Gain) : IsSetter (.setGain g) fun x => { x with gain := g } :=
  ⟨rfl, fun _ => rfl, fun _ => rfl⟩

theorem setVoltageReference_isSetter (r : ReferenceMode) :
    IsSetter (.setVoltageReference r) fun x => { x with ref := r } :=
  ⟨rfl, fun _ => rfl, fun _ => rfl⟩

theorem setPowerMode_isSetter (p : PowerMode) : IsSetter (.setPowerMode p) fun x => { x with pd := p } :=
  ⟨rfl, fun _ => rfl, fun _ => rfl⟩

namespace IsSetter

variable {i j : Instr} {f g : Registers → Registers} {s : State}

/-- Without registers a setter is refused (R209). -/
theorem opState_of_none (hi : IsSetter i f) (hs : s.regs = none) :
    opState i s = s.answer (.refused .notConstructed) :=
  opState_of_refused (by rw [hi.written, hs]; rfl)

theorem opState_of_some (hi : IsSetter i f) {x : Registers} (hx : s.regs = some x) :
    opState i s = (s.setRegs (f x)).answer (.ok 0#8) := by
  have hwritten : writtenRegs i s.regs = some (f x) := by rw [hi.written, hx]; rfl
  rw [opState_of_accepted hwritten, acceptedState_of_silent hi.silent, hi.noResult]

/-- R140 to R142: the whole next state of an accepted setter. -/
theorem exec_of_some (hi : IsSetter i f) {x : Registers} (hx : s.regs = some x) :
    exec i s = .next { s with
      regs := some (f x)
      responses := s.responses ++ [0x400#12]
      requests := s.requests.tail
      index := s.index + 1 } := by
  rw [exec_eq_opState, hi.opState_of_some hx, State.answer, word_ok_zero]
  rfl

/-- Two setters whose writes commute, commute as operations, accepted or not: they give the same responses. -/
theorem runOps_comm (hi : IsSetter i f) (hj : IsSetter j g) (hfg : Function.Commute f g) (s : State) :
    runOps [i, j] s = runOps [j, i] s := by
  suffices h : opState j (opState i s) = opState i (opState j s) by
    rw [runOps_eq_opsState, runOps_eq_opsState]
    exact congrArg _ h
  cases hs : s.regs with
  | none =>
    have hrefused : (s.answer (.refused .notConstructed)).regs = none := hs
    rw [hi.opState_of_none hs, hj.opState_of_none hs, hi.opState_of_none hrefused, hj.opState_of_none hrefused]
  | some x =>
    rw [hi.opState_of_some hs, hj.opState_of_some hs, hj.opState_of_some (x := f x) rfl,
      hi.opState_of_some (x := g x) rfl, hfg x]
    rfl

/-- A setter whose write covers that of the setter before it leaves the registers as if it had been alone; neither sends
anything. -/
theorem last_write_wins {t u : State} (hi : IsSetter i f) (hj : IsSetter j g) (hfg : f ∘ g = f)
    (ht : runOps [j, i] s = .next t) (hu : exec i s = .next u) : t.regs = u.regs ∧ t.trace = s.trace := by
  obtain rfl : opsState [j, i] s = t := by simpa [runOps_eq_opsState] using ht
  obtain rfl := eq_opState_of_exec hu
  constructor
  · calc (opsState [j, i] s).regs
        = writtenRegs i (writtenRegs j s.regs) := opsState_regs _ s
      _ = s.regs.map (f ∘ g) := by rw [hi.written, hj.written, Option.map_map]
      _ = (opState i s).regs := by rw [hfg, opState_regs, hi.written]
  · exact (opsState_nothingSent (by simp [hi.silent, hj.silent]) s).trace

end IsSetter

/-- Settles O55: the three setters write three different registers, and each writes its own whatever it held. -/
theorem setterLaws : Obligations.SetterLaws :=
  ⟨fun s g r => (setGain_isSetter g).runOps_comm (setVoltageReference_isSetter r) (fun _ => rfl) s,
    fun s g p => (setGain_isSetter g).runOps_comm (setPowerMode_isSetter p) (fun _ => rfl) s,
    fun s r p => (setVoltageReference_isSetter r).runOps_comm (setPowerMode_isSetter p) (fun _ => rfl) s,
    fun _ _ _ g g' => (setGain_isSetter g).last_write_wins (setGain_isSetter g') rfl,
    fun _ _ _ r r' => (setVoltageReference_isSetter r).last_write_wins (setVoltageReference_isSetter r') rfl,
    fun _ _ _ p p' => (setPowerMode_isSetter p).last_write_wins (setPowerMode_isSetter p') rfl⟩

/-! ## The bits of the command byte beside a field (R31, R85) -/

theorem commandByte_above_gain (x : Registers) :
    (commandByte x).extractLsb' 1 7 = encMemT x.memt ++ encRef x.ref ++ encPd x.pd :=
  BitVec.extractLsb'_append_eq_left

theorem commandByte_above_pd (x : Registers) : (commandByte x).extractLsb' 3 5 = encMemT x.memt ++ encRef x.ref := by
  obtain ⟨hmemt, href, -, -⟩ := commandByte_fields x
  exact extractLsb'_eq_append_iff.2 ⟨hmemt.symm, href.symm⟩

theorem commandByte_below_ref (x : Registers) : (commandByte x).extractLsb' 0 3 = encPd x.pd ++ encGain x.gain := by
  obtain ⟨-, -, hpd, hgain⟩ := commandByte_fields x
  exact extractLsb'_eq_append_iff.2 ⟨hpd.symm, hgain.symm⟩

/-! ## Each setter writes its own register only (R140 to R142) -/

/-- Settles O23: the bits above `G` are made of registers `setGain` does not write. -/
theorem setGainWritesGainOnly : Obligations.SetGainWritesGainOnly := by
  intro s x g hx
  obtain ⟨-, -, -, hgain⟩ := commandByte_fields { x with gain := g }
  refine ⟨(setGain_isSetter g).exec_of_some hx, hgain.symm, ?_⟩
  rw [commandByte_above_gain, commandByte_above_gain]

/-- Settles O24: the bits on both sides of `VREF` are made of registers `setVoltageReference` does not write. -/
theorem setVoltageReferenceWritesRefOnly : Obligations.SetVoltageReferenceWritesRefOnly := by
  intro s x r hx
  obtain ⟨hmemt', href, -, -⟩ := commandByte_fields { x with ref := r }
  obtain ⟨hmemt, -, -, -⟩ := commandByte_fields x
  refine ⟨(setVoltageReference_isSetter r).exec_of_some hx, href.symm, hmemt'.symm.trans hmemt, ?_⟩
  rw [commandByte_below_ref, commandByte_below_ref]

/-- Settles O25: the bits on both sides of `PD` are made of registers `setPowerMode` does not write. -/
theorem setPowerModeWritesPdOnly : Obligations.SetPowerModeWritesPdOnly := by
  intro s x p hx
  obtain ⟨-, -, hpd, hgain'⟩ := commandByte_fields { x with pd := p }
  obtain ⟨-, -, -, hgain⟩ := commandByte_fields x
  refine ⟨(setPowerMode_isSetter p).exec_of_some hx, hpd.symm, ?_, hgain'.symm.trans hgain⟩
  rw [commandByte_above_pd, commandByte_above_pd]

end Sys2Proof.Machine
end

section
/-! PROOFS. The statements on the fast path (42_level_fast.md R160 to R163): what it stages, what it answers, and what of
the staged levels is sent. -/

namespace Sys2Proof.Machine

/-! ## The byte it returns (R61, R160) -/

/-- R160: the lower byte of the wire level, for every variant with `LOW`. -/
theorem fastPathByte_low (v : Variant) (l : Level) : fastPathByte v .low l = lvlLo (wireLevel v l) := by
  cases v <;> rfl

/-- R160: the byte selection matters to `V8` only. -/
theorem fastPathByte_of_ne_v8 {v : Variant} (hv : v ≠ .v8) (sel : Lvl8Sel) (l : Level) :
    fastPathByte v sel l = lvlLo (wireLevel v l) := by
  cases v with
  | v8 => exact absurd rfl hv
  | v10 => rfl
  | v12 => rfl

/-- R61, R160: where one level byte is sent, it is the byte returned. -/
theorem levelBytes_v8 (sel : Lvl8Sel) (l : Level) : levelBytes .v8 sel l = [fastPathByte .v8 sel l] := rfl

/-! ## What it stages (R160, R163) -/

theorem writtenRegs_fast {regs : Option Registers} {x : Registers} (hx : regs = some x) (l : Level) :
    writtenRegs (.setOutputLevelVolatileFast l) regs = some { x with level := l } := by
  rw [hx]
  rfl

/-- Settles O26: it sends nothing and answers its byte, and no field of `CMD` is made of `LEVEL`. -/
theorem fastPathStagesTheLevel : Obligations.FastPathStagesTheLevel := by
  intro s x l hx
  have hexec := exec_of_silent (s := s) rfl (writtenRegs_fast hx l)
  rw [word_ok] at hexec
  refine ⟨hexec, fun hlow => ?_, fun hv => fastPathByte_of_ne_v8 hv s.lvl8Sel l, fun hv => ?_, rfl⟩
  · rw [hlow]
    exact fastPathByte_low s.variant l
  · rw [hv]
    exact levelBytes_v8 s.lvl8Sel l

/-- Settles O57: the fast path touches no bus, and the second one writes over the level of the first before the frame is
made. -/
theorem onlyTheLastStagedLevelIsSent : Obligations.OnlyTheLastStagedLevelIsSent := by
  intro s x l l' mt hx hc
  have hwritten : [.setOutputLevelVolatileFast l, .setOutputLevelVolatileFast l', .downloadParameters mt].foldl
      (fun regs i => writtenRegs i regs) s.regs = some { x with level := l', memt := mt } := by
    rw [hx]
    rfl
  have hsilent : ∀ i ∈ [.setOutputLevelVolatileFast l, .setOutputLevelVolatileFast l'], busOperation i = none := by
    simp [busOperation]
  exact ⟨_, runOps_eq_opsState _ s, (opsState_regs _ s).trans hwritten,
    opsState_then_write_trace hsilent (i := .downloadParameters mt) rfl hwritten hc⟩

end Sys2Proof.Machine
end

section
/-! PROOFS. The statements on the run invariant (43_download_write_protocol.md R172, R178): a transaction read call by call
is where the sequencer says, so every step of both readings keeps the invariant. -/

namespace Sys2Proof.Machine

/-! ## The steps of the stepwise reading, by the phase of the sequencer (R178) -/

theorem seqStep_of_idle {s : State} (h : s.seq = .idle) : seqStep s = serveRequest takeRequest s := by
  simp [seqStep, h]

theorem seqStep_of_busy {s : State} (h : s.seq ≠ .idle) : seqStep s = advanceSequencer s := by
  cases hs : s.seq with
  | idle => exact absurd hs h
  | configure op => simp [seqStep, hs]
  | transmit idx => simp [seqStep, hs]
  | acknowledge => simp [seqStep, hs]

/-- R178, first row of `IDLE`: a bus-touching operation is taken when the registers hold values. -/
theorem takeRequest_of_bus {i : Instr} {op : BusOp} {x : Registers} {s : State} (hi : busOperation i = some op)
    (hx : s.regs = some x) : takeRequest i s = .next { s with seq := .configure op } := by
  simp [takeRequest, hi, hx]

/-- R178, second row of `IDLE`: every other request is one step. -/
theorem takeRequest_of_other {i : Instr} {s : State} (h : busOperation i = none ∨ s.regs = none) :
    takeRequest i s = exec i s := by
  obtain hi | hs := h
  · simp [takeRequest, hi]
  · cases hi : busOperation i <;> simp [takeRequest, hi, hs]

/-! ## The bytes of a frame (R87, R172) -/

/-- R59, R61: the last byte of a frame has the low bits clear that the mask of its variant clears. -/
theorem lastByteMasked_frame (v : Variant) (sel : Lvl8Sel) (x : Registers) {b : Byte}
    (hb : (frame v sel x)[frameLength v - 1]? = some b) : lastByteMasked v sel b = true := by
  cases v with
  | v12 => rfl
  | v10 =>
    obtain rfl : lvlLo (wireLevel .v10 x.level) = b := Option.some.inj hb
    exact beq_iff_eq.2 (lvlLo_wireLevel_lowBits (by decide) x.level)
  | v8 =>
    cases sel with
    | mid => rfl
    | low =>
      obtain rfl : lvlLo (wireLevel .v8 x.level) = b := Option.some.inj hb
      exact beq_iff_eq.2 (lvlLo_wireLevel_lowBits (by decide) x.level)

/-- R172: every byte of a frame may stand where it stands. -/
theorem frameByteOk_frame {v : Variant} {sel : Lvl8Sel} {x : Registers} {k : Nat} {b : Byte}
    (hb : (frame v sel x)[k]? = some b) : frameByteOk v sel k b = true := by
  have hcommand : k = 0 → (decodeCommand b).isSome = true := by
    rintro rfl
    obtain rfl : commandByte x = b := Option.some.inj hb
    simp [decodeCommand_commandByte]
  have hlast : k + 1 = frameLength v → lastByteMasked v sel b = true := fun hk =>
    lastByteMasked_frame v sel x (by rwa [← hk])
  simp only [frameByteOk, Bool.and_eq_true, Bool.or_eq_true, bne_iff_ne, ne_eq]
  exact ⟨Decidable.not_or_of_imp hcommand, Decidable.not_or_of_imp hlast⟩

/-! ## A transaction read call by call (R172, R178) -/

/-- After `k` calls the trace is where `TRANSMIT` with `IDX = k` has it, also when the sequencer is in `ACKNOWLEDGE`. -/
theorem scanOfSeq_seqAfterCalls {v : Variant} {k : Nat} (hk : k ≤ frameLength v + 1) :
    scanOfSeq v (seqAfterCalls (frameLength v) k) = scanOfSeq v (.transmit k) := by
  unfold seqAfterCalls
  split
  · rfl
  · obtain rfl : k = frameLength v + 1 := by omega
    rfl

theorem exists_transactionCall (a : BusAddress) {bs : List Byte} {k : Nat} (hk : k ≤ bs.length) :
    ∃ call, (transactionCalls a bs)[k]? = some call :=
  ⟨_, List.getElem?_eq_getElem (by rw [transactionCalls_length]; omega)⟩

/-- The call numbered `k` of the transaction of a frame takes the trace one call further. -/
theorem scanEvent_call {v : Variant} {sel : Lvl8Sel} {a : BusAddress} {x : Registers} {k : Nat} {call : Event}
    (hcall : (transactionCalls a (frame v sel x))[k]? = some call) :
    scanEvent v sel (some (scanOfSeq v (.transmit k))) call = some (scanOfSeq v (.transmit (k + 1))) := by
  cases k with
  | zero =>
    obtain rfl : Event.beginTransaction a = call := Option.some.inj hcall
    rfl
  | succ j =>
    obtain ⟨b, hb, rfl⟩ : ∃ b, (frame v sel x)[j]? = some b ∧ Event.writeByte b = call := by
      simpa [transactionCalls] using hcall
    have hj : j < frameLength v := frame_length v sel x ▸ (List.getElem?_eq_some_iff.1 hb).1
    simp [scanEvent, scanOfSeq, hj, frameByteOk_frame hb]

theorem scanEvent_endTransaction (v : Variant) (sel : Lvl8Sel) (st : Status) :
    scanEvent v sel (some (scanOfSeq v .acknowledge)) (.endTransaction st) = some .outside := by
  simp [scanEvent, scanOfSeq]

/-- The first `k` calls of the transaction of a frame. -/
theorem scan_take_calls (v : Variant) (sel : Lvl8Sel) (a : BusAddress) (x : Registers) {k : Nat}
    (hk : k ≤ frameLength v + 1) :
    ((transactionCalls a (frame v sel x)).take k).foldl (scanEvent v sel) (some .outside) =
      some (scanOfSeq v (.transmit k)) := by
  induction k with
  | zero => rfl
  | succ j ih =>
    obtain ⟨call, hcall⟩ := exists_transactionCall a (bs := frame v sel x) (k := j) (by rw [frame_length]; omega)
    rw [List.take_add_one, hcall, List.foldl_append, ih (by omega)]
    exact scanEvent_call hcall

theorem take_all_calls (v : Variant) (sel : Lvl8Sel) (a : BusAddress) (x : Registers) :
    (transactionCalls a (frame v sel x)).take (frameLength v + 1) = transactionCalls a (frame v sel x) :=
  List.take_of_length_le (by rw [transactionCalls_length, frame_length])

/-- R172: a whole transaction of a frame leads from outside to outside. -/
theorem scan_transaction (v : Variant) (sel : Lvl8Sel) (a : BusAddress) (x : Registers) (st : Status) :
    (transactionCalls a (frame v sel x) ++ [Event.endTransaction st]).foldl (scanEvent v sel) (some .outside) =
      some .outside := by
  rw [List.foldl_append, ← take_all_calls, scan_take_calls v sel a x le_rfl]
  exact scanEvent_endTransaction v sel st

/-! ## Each update of the state keeps the invariant -/

/-- R178: with registers that hold values, wherever the calls of a transaction lead is a row of the table. -/
theorem seqLegal_of_seqAfterCalls {s : State} {k : Nat} (hregs : s.regs.isSome = true)
    (hseq : s.seq = seqAfterCalls (frameLength s.variant) k) : seqLegal s = true := by
  unfold seqAfterCalls at hseq
  split at hseq <;> rename_i hk <;> simp [seqLegal, hseq, hregs, hk]

/-- Outside `IDLE` the registers of a legal sequencer hold values. -/
theorem regs_of_seqLegal {s : State} (h : seqLegal s = true) (hseq : s.seq ≠ .idle) : ∃ x, s.regs = some x := by
  cases hs : s.seq with
  | idle => exact absurd hs hseq
  | configure op => simpa [seqLegal, hs, Option.isSome_iff_exists] using h
  | transmit idx =>
    simp only [seqLegal, hs, Bool.and_eq_true] at h
    exact Option.isSome_iff_exists.1 h.1
  | acknowledge => simpa [seqLegal, hs, Option.isSome_iff_exists] using h

theorem idx_of_seqLegal {s : State} {idx : Nat} (h : seqLegal s = true) (hseq : s.seq = .transmit idx) :
    idx ≤ frameLength s.variant := by
  simp only [seqLegal, hseq, Bool.and_eq_true, decide_eq_true_eq] at h
  exact h.2

/-- New values keep the sequencer legal: it only asks that there are values. -/
theorem seqLegal_setRegs {s : State} (h : seqLegal s = true) (x : Registers) : seqLegal (s.setRegs x) = true := by
  cases hs : s.seq with
  | idle => simp [seqLegal, hs]
  | configure op => simp [seqLegal, hs]
  | transmit idx => simp [seqLegal, hs, idx_of_seqLegal h hs]
  | acknowledge => simp [seqLegal, hs]

namespace RunInvariant

variable {s t : State}

theorem legal (h : RunInvariant s) : seqLegal s = true := h.1

/-- A response for each operation counted: one more of both. -/
theorem answer (h : RunInvariant s) (r : Response) : RunInvariant (s.answer r) := by
  obtain ⟨hlegal, hscan, hcount⟩ := h
  exact ⟨hlegal, hscan, by simp [hcount]⟩

theorem setRegs (h : RunInvariant s) (x : Registers) : RunInvariant (s.setRegs x) := by
  obtain ⟨hlegal, hscan, hcount⟩ := h
  exact ⟨seqLegal_setRegs hlegal x, hscan, hcount⟩

theorem completeCalls (h : RunInvariant s) (n : Nat) : RunInvariant (s.completeCalls n) := h

theorem takeStatus (h : RunInvariant s) : RunInvariant s.takeStatus := h

/-- Events and a phase that go together. -/
theorem emit_withSeq (h : RunInvariant s) {es : List Event} {q : Seq}
    (hlegal : seqLegal { s with seq := q } = true)
    (hscan : es.foldl (scanEvent s.variant s.lvl8Sel) (some (scanOfSeq s.variant s.seq)) =
      some (scanOfSeq s.variant q)) :
    RunInvariant { s.emit es with seq := q } := by
  obtain ⟨-, hbefore, hcount⟩ := h
  refine ⟨hlegal, ?_, hcount⟩
  have happend : scanTrace s.variant s.lvl8Sel (s.trace ++ es) =
      es.foldl (scanEvent s.variant s.lvl8Sel) (scanTrace s.variant s.lvl8Sel s.trace) := List.foldl_append
  exact happend.trans (hbefore ▸ hscan)

/-- Calls of a transaction that take the trace to the one numbered `k`, and the phase they lead to. -/
theorem emit_afterCalls (h : RunInvariant s) {x : Registers} (hx : s.regs = some x) {es : List Event} {k : Nat}
    (hk : k ≤ frameLength s.variant + 1)
    (hscan : es.foldl (scanEvent s.variant s.lvl8Sel) (some (scanOfSeq s.variant s.seq)) =
      some (scanOfSeq s.variant (.transmit k))) :
    RunInvariant { s.emit es with seq := seqAfterCalls (frameLength s.variant) k } :=
  h.emit_withSeq (seqLegal_of_seqAfterCalls (by simp [hx]) rfl) (by rw [scanOfSeq_seqAfterCalls hk, hscan])

/-- A phase in which the trace stays where it is. -/
theorem withSeq (h : RunInvariant s) {q : Seq} (hlegal : seqLegal { s with seq := q } = true)
    (hscan : scanOfSeq s.variant s.seq = scanOfSeq s.variant q) : RunInvariant { s with seq := q } := by
  obtain ⟨-, hbefore, hcount⟩ := h
  exact ⟨hlegal, hscan ▸ hbefore, hcount⟩

/-! ## The operations in one step (R171, R175) -/

/-- A full write in `IDLE`: a whole transaction and its response, or the calls completed and the phase reached. -/
theorem finishWrite_writeCommand (h : RunInvariant s) (hseq : s.seq = .idle) {x : Registers} (hx : s.regs = some x)
    (mt : MemoryTarget) (y : Registers) : RunInvariant (finishWrite (writeCommand mt y s)) := by
  have houtside : scanOfSeq s.variant s.seq = .outside := by rw [hseq]; rfl
  unfold writeCommand
  obtain ⟨-, hw⟩ | ⟨k, -, hk, hw⟩ := memWrite_cases y.addr (frame s.variant s.lvl8Sel { y with memt := mt }) s
  · rw [hw, finishWrite_some]
    refine RunInvariant.answer (((h.emit_withSeq (q := s.seq) h.legal ?_).completeCalls _).takeStatus) _
    rw [houtside]
    exact scan_transaction ..
  · rw [frame_length] at hk
    rw [hw, finishWrite_none, frame_length]
    refine (h.emit_afterCalls hx (Nat.le_of_lt_succ hk) ?_).completeCalls k
    rw [houtside]
    exact scan_take_calls _ _ _ _ (Nat.le_of_lt_succ hk)

theorem acceptedState (h : RunInvariant s) (hseq : s.seq = .idle) (i : Instr) (y : Registers) :
    RunInvariant (acceptedState i y s) := by
  cases hi : busOperation i with
  | none =>
    rw [acceptedState_of_silent hi]
    exact (h.setRegs y).answer _
  | some op =>
    rw [acceptedState_of_bus hi]
    exact (h.setRegs y).finishWrite_writeCommand hseq rfl y.memt y

theorem opState (h : RunInvariant s) (hseq : s.seq = .idle) (i : Instr) : RunInvariant (opState i s) := by
  cases hy : writtenRegs i s.regs with
  | none =>
    rw [opState_of_refused hy]
    exact h.answer _
  | some y =>
    rw [opState_of_accepted hy]
    exact h.acceptedState hseq i y

theorem exec (h : RunInvariant s) (hseq : s.seq = .idle) {i : Instr} (ht : exec i s = .next t) :
    RunInvariant t := by
  obtain rfl := eq_opState_of_exec ht
  exact h.opState hseq i

/-! ## The transitions of the sequencer (R178 to R181) -/

theorem takeRequest (h : RunInvariant s) (hseq : s.seq = .idle) {i : Instr} (ht : takeRequest i s = .next t) :
    RunInvariant t := by
  cases hi : busOperation i with
  | none =>
    rw [takeRequest_of_other (.inl hi)] at ht
    exact h.exec hseq ht
  | some op =>
    cases hx : s.regs with
    | none =>
      rw [takeRequest_of_other (.inr hx)] at ht
      exact h.exec hseq ht
    | some x =>
      rw [takeRequest_of_bus hi hx] at ht
      cases ht
      exact h.withSeq (by simp [seqLegal, hx]) (by rw [hseq]; rfl)

theorem seqConfigure (h : RunInvariant s) {op : BusOp} (hseq : s.seq = .configure op) :
    RunInvariant (seqConfigure op s) := by
  obtain ⟨x, hx⟩ := regs_of_seqLegal h.legal (by simp [hseq])
  have hscan : scanOfSeq s.variant s.seq = scanOfSeq s.variant (.transmit 0) := by rw [hseq]; rfl
  obtain ⟨-, hc⟩ | ⟨mt, -, hc⟩ := seqConfigure_cases op s <;> rw [hc]
  · exact h.withSeq (by simp [seqLegal, hx]) hscan
  · rw [hx]
    exact (h.setRegs { x with memt := mt }).withSeq (by simp [seqLegal]) hscan

theorem seqTransmit (h : RunInvariant s) {idx : Nat} (hseq : s.seq = .transmit idx)
    (ht : seqTransmit idx s = .next t) : RunInvariant t := by
  obtain ⟨x, call, hx, hcall, ⟨-, rfl⟩ | ⟨-, rfl⟩⟩ := seqTransmit_cases ht
  · exact h
  · have hidx : idx < frameLength s.variant + 1 := by
      simpa [transactionCalls_length, frame_length] using (List.getElem?_eq_some_iff.1 hcall).1
    rw [frame_length]
    refine (h.emit_afterCalls hx hidx ?_).completeCalls 1
    rw [hseq]
    exact scanEvent_call hcall

theorem seqAcknowledge (h : RunInvariant s) (hseq : s.seq = .acknowledge) : RunInvariant (seqAcknowledge s) := by
  obtain ⟨-, ha⟩ | ⟨-, ha⟩ := seqAcknowledge_cases s <;> rw [ha]
  · exact h
  · refine RunInvariant.answer (((h.emit_withSeq (q := .idle) rfl ?_).completeCalls 1).takeStatus) _
    rw [hseq]
    exact scanEvent_endTransaction s.variant s.lvl8Sel s.status

theorem advanceSequencer (h : RunInvariant s) (ht : advanceSequencer s = .next t) : RunInvariant t := by
  obtain ⟨-, rfl⟩ | ⟨op, hseq, rfl⟩ | ⟨idx, hseq, ht⟩ | ⟨hseq, rfl⟩ := advanceSequencer_cases ht
  · exact h
  · exact h.seqConfigure hseq
  · exact h.seqTransmit hseq ht
  · exact h.seqAcknowledge hseq

/-- In `IDLE` an illegal request is answered; a legal one does what `run` does (R206). -/
theorem serveRequest (h : RunInvariant s) {run : Instr → State → Host.Outcome State Fault Refusal}
    (hrun : ∀ i, run i s = .next t → RunInvariant t) (ht : serveRequest run s = .next t) : RunInvariant t := by
  obtain ⟨-, hs⟩ | ⟨w, ws, e, -, -, hs⟩ | ⟨w, ws, i, -, -, hs⟩ := serveRequest_cases run s <;> rw [hs] at ht
  · cases ht; exact h
  · cases ht; exact h.answer _
  · exact hrun i ht

end RunInvariant

/-- Settles O45: in `IDLE` an operation leaves whole transactions or the one it is stuck in; outside `IDLE` the sequencer
makes the next call of the open one. -/
theorem everyStepKeepsTheInvariant : Obligations.EveryStepKeepsTheInvariant := by
  intro s t h ht
  by_cases hseq : s.seq = .idle
  · rw [step_of_idle hseq] at ht
    exact h.serveRequest (fun _ => h.exec hseq) ht
  · rw [step_of_busy hseq] at ht
    exact h.advanceSequencer ht

/-- Settles O46: the stepwise reading differs in `IDLE` only, where it may enter `CONFIGURE`. -/
theorem everySequencerStepKeepsTheInvariant : Obligations.EverySequencerStepKeepsTheInvariant := by
  intro s t h ht
  by_cases hseq : s.seq = .idle
  · rw [seqStep_of_idle hseq] at ht
    exact h.serveRequest (fun _ => h.takeRequest hseq) ht
  · rw [seqStep_of_busy hseq] at ht
    exact h.advanceSequencer ht

end Sys2Proof.Machine
end

section
/-! PROOFS. The statements on one full write (43_download_write_protocol.md R170 to R175, R178 to R182): the operation in
one step, the same operation call by call, and a transport that stops in the middle of it. -/

namespace Sys2Proof.Machine

/-! ## A full write in one step (R170 to R174) -/

/-- Settles O28: the target is written before the frame is made, so the frame sent is that of the registers left. -/
theorem downloadWritesTargetThenSendsTheFrame : Obligations.DownloadWritesTargetThenSendsTheFrame := by
  intro s x mt hx hc
  have hwritten : writtenRegs (.downloadParameters mt) s.regs = some { x with memt := mt } := by
    rw [hx]
    rfl
  exact exec_of_completed_write rfl hwritten hc

/-- Settles O29: the frame of the registers left, by variant. -/
theorem eventsOfAFullWrite : Obligations.EventsOfAFullWrite := by
  intro s t x mt hx hcompletes hlow h
  rw [downloadWritesTargetThenSendsTheFrame s x mt hx (canComplete_none _ hcompletes)] at h
  obtain rfl := Host.Outcome.next.inj h
  cases hv : s.variant with
  | v12 => rfl
  | v10 => rfl
  | v8 => rw [hlow]; rfl

/-- Settles O58: the first write leaves the new target in the registers, and the second sends their frame again. -/
theorem retrySendsTheSameFrame : Obligations.RetrySendsTheSameFrame := by
  intro s x mt q hx hcompletes hscript
  have hdownload := opState_of_completed_write (i := .downloadParameters mt) (y := { x with memt := mt }) rfl
    (by rw [hx]; rfl) (canComplete_none (s := s) _ hcompletes)
  have hregs : (opState (.downloadParameters mt) s).regs = some { x with memt := mt } := by simp [hdownload]
  have hretry := opState_of_completed_write (i := .initializeOp) rfl hregs
    (canComplete_none _ (by simp [hdownload, hcompletes]))
  have hstatus : s.status = .error := by simp [State.status, hscript]
  have hstatus' : (opState (.downloadParameters mt) s).status = .noError := by
    simp [State.status, hdownload, hscript]
  have hops : opsState [.downloadParameters mt, .initializeOp] s =
      opState .initializeOp (opState (.downloadParameters mt) s) := rfl
  refine ⟨_, runOps_eq_opsState _ s, ?_, ?_, ?_⟩ <;> rw [hops, hretry, hstatus']
  · simp
  · simp [hdownload, hstatus, responseOfStatus_word]
  · simp [hdownload, hstatus, transactionCalls]

/-! ## A transport that stops in the middle of a full write (R175) -/

/-- `s` when the first `k` calls of the transaction that sends the registers `y` have been completed. -/
def State.afterCalls (y : Registers) (k : Nat) (s : State) : State :=
  { ((s.setRegs y).emit ((transactionCalls y.addr (frame s.variant s.lvl8Sel y)).take k)).completeCalls k with
    seq := seqAfterCalls (frameLength s.variant) k }

/-- R175: the operation in one step stays where its transaction stops. -/
theorem opState_of_stuck_write {i : Instr} {op : BusOp} {y : Registers} {s : State} {k : Nat}
    (hi : busOperation i = some op) (hy : writtenRegs i s.regs = some y) (hk : s.completes = some k)
    (hlt : k < frameLength s.variant + 2) : opState i s = s.afterCalls y k := by
  have hlength := frame_length s.variant s.lvl8Sel y
  have hwrite := memWrite_stuck (a := y.addr) (bs := frame s.variant s.lvl8Sel y) (s := s.setRegs y) hk
    (hlength ▸ hlt)
  calc opState i s
      = finishWrite (memWrite y.addr (frame s.variant s.lvl8Sel y) (s.setRegs y)) :=
        (opState_of_accepted hy).trans (acceptedState_of_bus hi y s)
    _ = s.afterCalls y k := by rw [hwrite, finishWrite_none, hlength]; rfl

theorem exec_of_stuck_write {i : Instr} {op : BusOp} {y : Registers} {s : State} {k : Nat}
    (hi : busOperation i = some op) (hy : writtenRegs i s.regs = some y) (hk : s.completes = some k)
    (hlt : k < frameLength s.variant + 2) :
    exec i s = .next { s with
      regs := some y
      trace := s.trace ++
        ([Event.beginTransaction y.addr] ++ (frame s.variant s.lvl8Sel y).map Event.writeByte).take k
      completes := some 0
      seq := if k ≤ frameLength s.variant then .transmit k else .acknowledge } := by
  have hnone : (s.completes.map fun j => j - k) = some 0 := by simp [hk]
  rw [exec_eq_opState, opState_of_stuck_write hi hy hk hlt, ← hnone]
  rfl

/-- Settles O39: `initialize` leaves the registers held, `downloadParameters` those with the new target. -/
theorem uncompletedCallLeavesNoResponse : Obligations.UncompletedCallLeavesNoResponse := by
  intro s x k hx hk hlt
  have hinitialize : writtenRegs .initializeOp s.regs = some x := hx
  have hdownload (mt : MemoryTarget) : writtenRegs (.downloadParameters mt) s.regs = some { x with memt := mt } := by
    rw [hx]
    rfl
  refine ⟨?_, fun mt => exec_of_stuck_write rfl (hdownload mt) hk hlt⟩
  rw [exec_of_stuck_write rfl hinitialize hk hlt, ← hx]

/-! ## Steps one after the other -/

theorem iterate_add {f : State → Host.Outcome State Fault Refusal} {m : Nat} {s t : State}
    (h : iterate f m s = .next t) (n : Nat) : iterate f (m + n) s = iterate f n t := by
  induction m generalizing s with
  | zero =>
    obtain rfl := Host.Outcome.next.inj h
    rw [Nat.zero_add]
  | succ m ih =>
    rw [Nat.succ_add]
    cases hf : f s with
    | next u =>
      simp only [iterate, hf] at h ⊢
      exact ih h
    | fault r => simp [iterate, hf] at h
    | refused r => simp [iterate, hf] at h

theorem iterate_concat {f : State → Host.Outcome State Fault Refusal} {k : Nat} {s t u : State}
    (h : iterate f k s = .next t) (hf : f t = .next u) : iterate f (k + 1) s = .next u := by
  rw [iterate_add h]
  simp [iterate, hf]

theorem iterate_of_fixed {f : State → Host.Outcome State Fault Refusal} {s : State} (h : f s = .next s) (n : Nat) :
    iterate f n s = .next s := by
  induction n with
  | zero => rfl
  | succ n ih => exact iterate_concat ih h

/-! ## A phase that waits for a dead transport (R175) -/

/-- The phases out of which a transport call leads (R178). -/
def Seq.Waits (q : Seq) : Prop := (∃ i, q = .transmit i) ∨ q = .acknowledge

theorem Seq.Waits.ne_idle {q : Seq} (h : q.Waits) : q ≠ .idle := by
  obtain ⟨i, rfl⟩ | rfl := h <;> simp

theorem seqAfterCalls_waits (n k : Nat) : (seqAfterCalls n k).Waits := by
  unfold seqAfterCalls
  split
  · exact .inl ⟨k, rfl⟩
  · exact .inr rfl

theorem advanceSequencer_of_stuck {s : State} (hlegal : seqLegal s = true) (hdead : s.completes = some 0)
    (hwaits : s.seq.Waits) : advanceSequencer s = .next s := by
  have hc : s.canComplete 1 = false := by simp [State.canComplete, hdead]
  obtain ⟨idx, hseq⟩ | hseq := hwaits
  · obtain ⟨x, hx⟩ := regs_of_seqLegal hlegal (by simp [hseq])
    obtain ⟨call, hcall⟩ := exists_transactionCall x.addr (bs := frame s.variant s.lvl8Sel x) (k := idx)
      (by rw [frame_length]; exact idx_of_seqLegal hlegal hseq)
    rw [advanceSequencer_of_transmit hseq, seqTransmit_of_call hx hcall, hc]
    rfl
  · rw [advanceSequencer_of_acknowledge hseq, seqAcknowledge, hc]
    rfl

/-- Settles O40: in both readings the step is the sequencer's, and it answers the same state. -/
theorem stuckPhaseIsNeverLeft : Obligations.StuckPhaseIsNeverLeft := by
  intro s n hlegal hdead hwaits
  have hstuck := advanceSequencer_of_stuck hlegal hdead hwaits
  have hbusy := Seq.Waits.ne_idle hwaits
  exact ⟨iterate_of_fixed ((step_of_busy hbusy).trans hstuck) n,
    iterate_of_fixed ((seqStep_of_busy hbusy).trans hstuck) n⟩

/-! ## How many calls the transport completes -/

theorem State.canComplete_of_le {s : State} {m n : Nat} (h : s.canComplete n = true) (hmn : m ≤ n) :
    s.canComplete m = true := by
  cases hc : s.completes with
  | none => exact canComplete_none m hc
  | some k =>
    simp only [State.canComplete, hc, decide_eq_true_eq] at h ⊢
    exact hmn.trans h

theorem State.canComplete_completeCalls {s : State} {m n : Nat} (h : s.canComplete (m + n) = true) :
    (s.completeCalls m).canComplete n = true := by
  cases hc : s.completes with
  | none => exact canComplete_none n (by simp [hc])
  | some k =>
    simp only [State.canComplete, State.completeCalls_completes, hc, Option.map_some, decide_eq_true_eq] at h ⊢
    omega

theorem completes_sub_sub (completes : Option Nat) (m n : Nat) :
    (completes.map fun j => j - m).map (fun j => j - n) = completes.map fun j => j - (m + n) := by
  simp [Function.comp_def, Nat.sub_sub]

/-! ## A full write call by call (R178 to R181) -/

/-- The registers a bus-touching operation leaves (R27). -/
def BusOp.written : BusOp → Registers → Registers
  | .initializeOp, x => x
  | .download mt, x => { x with memt := mt }

theorem writtenRegs_of_bus {i : Instr} {op : BusOp} (hi : busOperation i = some op) (regs : Option Registers) :
    writtenRegs i regs = regs.map op.written := by
  cases i with
  | construct a r g p m l => cases hi
  | initializeOp =>
    obtain rfl := Option.some.inj hi
    exact (Option.map_id_apply ..).symm
  | setGain g => cases hi
  | setVoltageReference r => cases hi
  | setPowerMode p => cases hi
  | setOutputLevelVolatileFast l => cases hi
  | downloadParameters mt =>
    obtain rfl := Option.some.inj hi
    rfl

theorem State.afterCalls_zero (y : Registers) (s : State) :
    s.afterCalls y 0 = { s.setRegs y with seq := .transmit 0 } := by
  simp [State.afterCalls, State.emit, State.completeCalls, seqAfterCalls]

/-- R179: `CONFIGURE` writes what the operation writes, and no call has been made. -/
theorem seqConfigure_eq_afterCalls {op : BusOp} {x : Registers} {s : State} (hx : s.regs = some x) :
    seqConfigure op { s with seq := .configure op } = s.afterCalls (op.written x) 0 := by
  rw [State.afterCalls_zero]
  cases op with
  | initializeOp =>
    rw [BusOp.written, State.setRegs_of_regs hx]
    rfl
  | download mt =>
    simp only [seqConfigure, hx]
    rfl

/-- The call numbered `k` takes the state after `k` calls to the state after `k + 1`. -/
theorem emit_call_afterCalls {y : Registers} {k : Nat} {s : State} {call : Event}
    (hcall : (transactionCalls y.addr (frame s.variant s.lvl8Sel y))[k]? = some call) :
    { ((s.afterCalls y k).emit [call]).completeCalls 1 with seq := seqAfterCalls (frameLength s.variant) (k + 1) } =
      s.afterCalls y (k + 1) := by
  have htake : (transactionCalls y.addr (frame s.variant s.lvl8Sel y)).take (k + 1) =
      (transactionCalls y.addr (frame s.variant s.lvl8Sel y)).take k ++ [call] := by
    rw [List.take_add_one, hcall]
    rfl
  have hcompletes := completes_sub_sub s.completes k 1
  simp only [State.afterCalls, State.emit, State.completeCalls, State.setRegs, htake, hcompletes, List.append_assoc]

/-- R180: `TRANSMIT` makes the call that comes next. -/
theorem seqStep_afterCalls {y : Registers} {k : Nat} {s : State} (hk : k ≤ frameLength s.variant)
    (hc : s.canComplete (k + 1) = true) : seqStep (s.afterCalls y k) = .next (s.afterCalls y (k + 1)) := by
  have hseq : (s.afterCalls y k).seq = .transmit k := if_pos hk
  have hcan : (s.afterCalls y k).canComplete 1 = true := State.canComplete_completeCalls (s := s) hc
  have hlength : (frame (s.afterCalls y k).variant (s.afterCalls y k).lvl8Sel y).length = frameLength s.variant :=
    frame_length s.variant s.lvl8Sel y
  obtain ⟨call, hcall⟩ := exists_transactionCall y.addr (bs := frame s.variant s.lvl8Sel y) (k := k)
    (by rw [frame_length]; exact hk)
  rw [seqStep_of_busy (by simp [hseq]), advanceSequencer_of_transmit hseq,
    seqTransmit_of_call (s := s.afterCalls y k) rfl hcall, if_pos hcan, hlength, emit_call_afterCalls hcall]

/-- R181: the call after the last byte ends the transaction, and the operation with it. -/
theorem seqStep_afterCalls_all {i : Instr} {op : BusOp} {y : Registers} {s : State}
    (hidle : s.seq = .idle) (hi : busOperation i = some op) (hy : writtenRegs i s.regs = some y)
    (hc : s.canComplete (frameLength s.variant + 2) = true) :
    seqStep (s.afterCalls y (frameLength s.variant + 1)) = .next (opState i s) := by
  have hseq : (s.afterCalls y (frameLength s.variant + 1)).seq = .acknowledge := if_neg (by omega)
  have hcan : (s.afterCalls y (frameLength s.variant + 1)).canComplete 1 = true :=
    State.canComplete_completeCalls (s := s) hc
  have hstatus : (s.afterCalls y (frameLength s.variant + 1)).status = s.status := rfl
  have hcompletes := completes_sub_sub s.completes (frameLength s.variant + 1) 1
  rw [seqStep_of_busy (by simp [hseq]), advanceSequencer_of_acknowledge hseq, opState_of_completed_write hi hy hc,
    seqAcknowledge, if_pos hcan, finishWrite_some, hstatus]
  simp only [State.afterCalls, State.emit, State.completeCalls, State.setRegs, State.takeStatus, take_all_calls,
    hcompletes, List.append_assoc, hidle]

/-- In `IDLE` the request at the port is the bus-touching operation `i`, and the registers hold values (R178, first row). -/
structure Accepts (s : State) (i : Instr) (op : BusOp) (x : Registers) : Prop where
  idle : s.seq = .idle
  request : requestAtPort s = some (.ok i)
  bus : busOperation i = some op
  held : s.regs = some x

theorem serveRequest_of_request {run : Instr → State → Host.Outcome State Fault Refusal} {s : State} {i : Instr}
    (h : requestAtPort s = some (.ok i)) : serveRequest run s = run i s := by
  simp [serveRequest, h]

namespace Accepts

variable {s : State} {i : Instr} {op : BusOp} {x : Registers}

theorem of_word {w : RequestWord} {ws : List RequestWord} (hidle : s.seq = .idle) (hreq : s.requests = w :: ws)
    (hdec : decode w = .ok i) (hi : busOperation i = some op) (hx : s.regs = some x) : Accepts s i op x :=
  ⟨hidle, by simp [requestAtPort, hreq, hdec], hi, hx⟩

theorem written (h : Accepts s i op x) : writtenRegs i s.regs = some (op.written x) := by
  rw [writtenRegs_of_bus h.bus, h.held]
  rfl

/-- R9: the one-step reading. -/
theorem step_eq (h : Accepts s i op x) : step s = .next (opState i s) := by
  rw [step_of_idle h.idle, serveRequest_of_request h.request, exec_eq_opState]

/-- R178: the first step of the stepwise reading takes the operation. -/
theorem runSeq_one (h : Accepts s i op x) : runSeq 1 s = .next { s with seq := .configure op } := by
  have htaken : seqStep s = .next { s with seq := .configure op } := by
    rw [seqStep_of_idle h.idle, serveRequest_of_request h.request, takeRequest_of_bus h.bus h.held]
  exact iterate_concat (k := 0) rfl htaken

/-- R179, R180: one step for `CONFIGURE` and one for each call. -/
theorem runSeq_afterCalls (h : Accepts s i op x) {k : Nat} (hk : k ≤ frameLength s.variant + 1)
    (hc : s.canComplete k = true) : runSeq (k + 2) s = .next (s.afterCalls (op.written x) k) := by
  induction k with
  | zero =>
    have hconfigure : seqStep { s with seq := .configure op } = .next (s.afterCalls (op.written x) 0) := by
      rw [seqStep_of_busy (by simp), advanceSequencer_of_configure rfl, seqConfigure_eq_afterCalls h.held]
    exact iterate_concat h.runSeq_one hconfigure
  | succ k ih =>
    have hbefore := ih (by omega) (State.canComplete_of_le hc (Nat.le_succ k))
    exact iterate_concat hbefore (seqStep_afterCalls (Nat.le_of_succ_le_succ hk) hc)

/-- R181: when all calls are completed the stepwise reading ends where the one-step reading ends. -/
theorem runSeq_completed (h : Accepts s i op x) (hc : s.canComplete (frameLength s.variant + 2) = true) :
    runSeq (frameLength s.variant + 4) s = .next (opState i s) :=
  iterate_concat (h.runSeq_afterCalls le_rfl (State.canComplete_of_le hc (Nat.le_succ _)))
    (seqStep_afterCalls_all h.idle h.bus h.written hc)

/-- R175: when the transport stops after `k` calls the stepwise reading waits where the one-step reading waits. -/
theorem runSeq_stuck (h : Accepts s i op x) {k : Nat} (hk : s.completes = some k)
    (hlt : k < frameLength s.variant + 2) : runSeq (frameLength s.variant + 4) s = .next (opState i s) := by
  have hreached := h.runSeq_afterCalls (Nat.le_of_lt_succ hlt) (by simp [State.canComplete, hk])
  have hlegal : seqLegal (s.afterCalls (op.written x) k) = true := seqLegal_of_seqAfterCalls (k := k) rfl rfl
  have hdead : (s.afterCalls (op.written x) k).completes = some 0 := by simp [State.afterCalls, hk]
  have hsteps : frameLength s.variant + 4 = k + 2 + (frameLength s.variant + 2 - k) := by omega
  rw [opState_of_stuck_write h.bus h.written hk hlt, hsteps, runSeq, iterate_add hreached]
  exact (stuckPhaseIsNeverLeft _ _ hlegal hdead (seqAfterCalls_waits _ _)).2

end Accepts

/-- Where the operations do the same to the request at the port, so does serving it. -/
theorem serveRequest_congr {f g : Instr → State → Host.Outcome State Fault Refusal} {s : State}
    (h : ∀ i, requestAtPort s = some (.ok i) → f i s = g i s) : serveRequest f s = serveRequest g s := by
  cases hr : requestAtPort s with
  | none => simp [serveRequest, hr]
  | some d =>
    cases d with
    | error e => simp [serveRequest, hr]
    | ok i => rw [serveRequest_of_request hr, serveRequest_of_request hr, h i hr]

/-- Settles O41: the transport completes all calls or stops after some, and every other request is one step by
`takeRequest_of_other`. -/
theorem stepwiseReadingAgrees : Obligations.StepwiseReadingAgrees := by
  constructor
  · intro s w ws i op x hidle hreq hdec hi hx
    have h := Accepts.of_word hidle hreq hdec hi hx
    rw [h.step_eq]
    cases hc : s.canComplete (frameLength s.variant + 2) with
    | true => exact h.runSeq_completed hc
    | false =>
      obtain ⟨k, hk, hlt⟩ := canComplete_false hc
      exact h.runSeq_stuck hk hlt
  · intro s hidle hother
    rw [seqStep_of_idle hidle, step_of_idle hidle]
    exact serveRequest_congr fun i hr => takeRequest_of_other (hother i hr)

theorem afterCalls_trace_length {y : Registers} {k : Nat} {s : State} (hk : k ≤ frameLength s.variant + 1) :
    (s.afterCalls y k).trace.length = s.trace.length + k := by
  simp [State.afterCalls, transactionCalls_length, frame_length, hk]

/-- Settles O42: `CONFIGURE`, then the state after each number of calls, then the end of the one-step reading. -/
theorem phasesInOrder : Obligations.PhasesInOrder := by
  intro s w ws i op x hidle hreq hdec hi hx hc
  have h := Accepts.of_word hidle hreq hdec hi hx
  have hreached {k : Nat} (hk : k ≤ frameLength s.variant + 1) :=
    h.runSeq_afterCalls hk (State.canComplete_of_le hc (hk.trans (Nat.le_succ _)))
  refine ⟨⟨_, h.runSeq_one, rfl, rfl, rfl⟩, fun k hk => ?_, ?_, ?_⟩
  · have hk' : k ≤ frameLength s.variant + 1 := hk.trans (Nat.le_succ _)
    exact ⟨_, hreached hk', if_pos hk, rfl, afterCalls_trace_length hk'⟩
  · exact ⟨_, hreached le_rfl, if_neg (by omega), rfl, afterCalls_trace_length le_rfl⟩
  · refine ⟨_, h.runSeq_completed hc, ?_⟩
    rw [opState_of_completed_write h.bus h.written hc]
    simp [hidle, transactionCalls_length, frame_length, Nat.add_assoc]

end Sys2Proof.Machine
end

section
/-! PROOFS. The statements on exceptions (60_exceptions.md): no operation and no step stops the machine (R207), the two
refusals (R206, R208 to R210), and the one error (R202). -/

namespace Sys2Proof.Machine

/-! ## Nothing stops the machine (R207) -/

/-- Settles O48: the next state is `opState`. -/
theorem everyOperationHasANextState : Obligations.EveryOperationHasANextState :=
  fun i s => ⟨opState i s, exec_eq_opState i s⟩

theorem takeRequest_total (i : Instr) (s : State) : ∃ t, takeRequest i s = .next t := by
  by_cases hother : busOperation i = none ∨ s.regs = none
  · rw [takeRequest_of_other hother]
    exact everyOperationHasANextState i s
  · obtain ⟨hbus, hregs⟩ := not_or.1 hother
    obtain ⟨op, hop⟩ := Option.ne_none_iff_exists'.1 hbus
    obtain ⟨x, hx⟩ := Option.ne_none_iff_exists'.1 hregs
    exact ⟨_, takeRequest_of_bus hop hx⟩

/-- Where no operation stops, no request does: without one nothing happens, and an illegal word is answered (R206). -/
theorem serveRequest_total {run : Instr → State → Host.Outcome State Fault Refusal} {s : State}
    (hrun : ∀ i, ∃ t, run i s = .next t) : ∃ t, serveRequest run s = .next t := by
  obtain ⟨-, hs⟩ | ⟨w, ws, e, -, -, hs⟩ | ⟨w, ws, i, -, -, hs⟩ := serveRequest_cases run s <;> rw [hs]
  · exact ⟨_, rfl⟩
  · exact ⟨_, rfl⟩
  · exact hrun i

/-- A legal sequencer in `TRANSMIT` has registers to frame and a call to make, so neither fault of log 11 is raised. -/
theorem advanceSequencer_total {s : State} (hlegal : seqLegal s = true) : ∃ t, advanceSequencer s = .next t := by
  cases hseq : s.seq with
  | idle => exact ⟨s, by simp [advanceSequencer, hseq]⟩
  | configure op => exact ⟨_, advanceSequencer_of_configure hseq⟩
  | transmit idx =>
    obtain ⟨x, hx⟩ := regs_of_seqLegal hlegal (by simp [hseq])
    obtain ⟨call, hcall⟩ := exists_transactionCall x.addr (bs := frame s.variant s.lvl8Sel x) (k := idx)
      (by rw [frame_length]; exact idx_of_seqLegal hlegal hseq)
    rw [advanceSequencer_of_transmit hseq]
    exact ⟨_, seqTransmit_of_call hx hcall⟩
  | acknowledge => exact ⟨_, advanceSequencer_of_acknowledge hseq⟩

/-- Settles O47: in `IDLE` every operation has a next state in both readings; outside `IDLE` both are the sequencer, which
the invariant keeps legal. -/
theorem noFaultFromTheInvariant : Obligations.NoFaultFromTheInvariant := by
  intro s h
  by_cases hseq : s.seq = .idle
  · rw [step_of_idle hseq, seqStep_of_idle hseq]
    exact ⟨serveRequest_total fun i => everyOperationHasANextState i s,
      serveRequest_total fun i => takeRequest_total i s⟩
  · rw [step_of_busy hseq, seqStep_of_busy hseq]
    exact ⟨advanceSequencer_total h.legal, advanceSequencer_total h.legal⟩

/-! ## The two refusals (R206, R208 to R210) -/

/-- R95, R208: a response, as a refusal is, changes the ports and nothing else. -/
theorem answer_of_request {r : Response} {s : State} {w : RequestWord} {ws : List RequestWord}
    (hreq : s.requests = w :: ws) :
    s.answer r = { s with responses := s.responses ++ [r.word], requests := ws, index := s.index + 1 } := by
  simp [State.answer, hreq]

theorem exists_decode_error_of_not_legal {w : RequestWord} (h : legalWord w = false) : ∃ e, decode w = .error e := by
  rw [exists_decode_error_iff, decodesExactlyTheWordsOfTheTable w, h]
  exact Bool.false_ne_true

theorem serveRequest_of_decode_error {run : Instr → State → Host.Outcome State Fault Refusal} {s : State}
    {w : RequestWord} {ws : List RequestWord} {e : DecodeError} (hreq : s.requests = w :: ws)
    (hdec : decode w = .error e) : serveRequest run s = .next (s.answer (.refused .illegalRequest)) := by
  simp [serveRequest, requestAtPort, hreq, hdec]

/-- Settles O33: a word that no row of the table names does not decode, and it is refused before the registers are
looked at. -/
theorem illegalRequestIsRefused : Obligations.IllegalRequestIsRefused := by
  intro s w ws hseq hreq hillegal
  obtain ⟨e, hdec⟩ := exists_decode_error_of_not_legal hillegal
  rw [step_of_idle hseq, serveRequest_of_decode_error hreq hdec, answer_of_request hreq, word_illegalRequest]

/-- R30: only `construct` gives values to registers that hold none. -/
theorem writtenRegs_none {i : Instr} (h : ∀ a r g p m l, i ≠ .construct a r g p m l) : writtenRegs i none = none := by
  cases i with
  | construct a r g p m l => exact absurd rfl (h a r g p m l)
  | initializeOp => rfl
  | setGain g => rfl
  | setVoltageReference r => rfl
  | setPowerMode p => rfl
  | setOutputLevelVolatileFast l => rfl
  | downloadParameters mt => rfl

/-- Settles O32: the operation has no registers to write, so `NotConstructed` is its only outcome. -/
theorem notConstructedIsRefused : Obligations.NotConstructedIsRefused := by
  intro s w ws i hseq hregs hreq hdec hi
  have hwritten : writtenRegs i s.regs = none := by rw [hregs, writtenRegs_none hi]
  rw [stepRunsTheDecodedOperation s w ws i hseq hreq hdec, exec_eq_opState, opState_of_refused hwritten,
    answer_of_request hreq, word_notConstructed]

/-! ## The one error (R202) -/

/-- Settles O30: the full write of `downloadWritesTargetThenSendsTheFrame` with the status settled as `ERROR`: the status
shows in the last event and in the response, not in the registers. -/
theorem failedDownloadKeepsTheNewTarget : Obligations.FailedDownloadKeepsTheNewTarget := by
  intro s x mt q hx hcompletes hscript
  have hstatus : s.status = .error := by simp [State.status, hscript]
  rw [downloadWritesTargetThenSendsTheFrame s x mt hx (canComplete_none _ hcompletes)]
  simp [hstatus, hcompletes, hscript]

end Sys2Proof.Machine
end

section
/-! PROOFS. The statement on the hardware reset (70_reset_and_hazards.md R231): its outcome at an operation boundary and in
mid-transaction (log 13). -/

namespace Sys2Proof.Machine

theorem hardwareReset_of_idle {s : State} (h : s.seq = .idle) : hardwareReset s = .next { s with regs := none } := by
  simp [hardwareReset, h]

theorem hardwareReset_of_busy {s : State} (h : s.seq ≠ .idle) : hardwareReset s = .fault .resetInTransaction := by
  cases hs : s.seq with
  | idle => exact absurd hs h
  | configure op => simp [hardwareReset, hs]
  | transmit idx => simp [hardwareReset, hs]
  | acknowledge => simp [hardwareReset, hs]

/-- Settles O59: an operation boundary is the phase `IDLE`, and each of the other three phases is mid-transaction. -/
theorem hardwareResetAtABoundary : Obligations.HardwareResetAtABoundary :=
  ⟨fun _ => hardwareReset_of_idle, fun _ => hardwareReset_of_busy⟩

end Sys2Proof.Machine
end

section
/-! PROOFS. The statement on a step without a request at the port (30_encoding.md R95; the model's choice, log 8). -/

namespace Sys2Proof.Machine

theorem serveRequest_of_no_request {run : Instr → State → Host.Outcome State Fault Refusal} {s : State}
    (hreq : s.requests = []) : serveRequest run s = .next s := by
  simp [serveRequest, requestAtPort, hreq]

/-- Settles O36: in `IDLE` a step serves the request at the port, and an empty port leaves nothing to serve. -/
theorem noRequestNoChange : Obligations.NoRequestNoChange := by
  intro s hseq hreq
  calc step s = serveRequest exec s := step_of_idle hseq
    _ = .next s := serveRequest_of_no_request hreq

end Sys2Proof.Machine
end
